-- ==== Sys2Proof/Word.lean ====
section
/-! DEFINITION. The word types of the block: bytes, the 40-bit command word and the 37-bit response word. -/

namespace Sys2Proof

/-- One byte: a pin pattern, a TABLE entry or a TRACK_SPEC byte (20_memory R50, R51, R57). -/
abbrev Byte := BitVec 8

/-- The 32-bit operand field of a command and DATA field of a response (30_encoding R71, R75). -/
abbrev Word32 := BitVec 32

/-- A command word: 40 bits, the one command length (30_encoding R71). -/
abbrev CommandWord := BitVec 40

/-- A response word: 37 bits (30_encoding R75). -/
abbrev ResponseWord := BitVec 37

end Sys2Proof
end

