-- ==== Sys2Proof/Syntax.lean ====
section
/-! DEFINITION. The eight commands of spec/opcode_table.json, one constructor each. -/

namespace Sys2Proof

/-- A command with its operand as the number the operand form gives it (30_encoding R72, R73). The range of an
operand is checked by `Instr.wf`. -/
inductive Instr where
  /-- RAW: the raw position (41_position_reads R130). -/
  | raw
  /-- UPOS: the unsigned position (41_position_reads R132). -/
  | upos
  /-- SPOS: the signed position (41_position_reads R134). -/
  | spos
  /-- MPOS: the multi-turn position (42_multiturn R160). -/
  | mpos
  /-- SETZ: set the zero offset to a given raw value, a `u8` (43_calibration R180). -/
  | setz (value : Nat)
  /-- SETZC: set the zero offset to the current position (43_calibration R182). -/
  | setzc
  /-- GETZ: read the zero offset (43_calibration R184). -/
  | getz
  /-- SETABS: set the absolute multi-turn position, an `i32` (43_calibration R186). -/
  | setabs (target : Int)
  deriving DecidableEq, Repr

end Sys2Proof
end

