-- ==== Sys2Proof/WellFormed.lean ====
section
/-! DEFINITION. When a command's operand fits its operand form (30_encoding R72, R79). -/

namespace Sys2Proof

/-- The operand lies in the range of its form: form B is a `u8`, form T an `i32`; form N has no operand
(30_encoding R72; the same ranges bound the immediates of R79). -/
def Instr.wf : Instr → Bool
  | .raw => true
  | .upos => true
  | .spos => true
  | .mpos => true
  | .setz value => decide (value < 256)
  | .setzc => true
  | .getz => true
  | .setabs target => decide (-2147483648 ≤ target ∧ target ≤ 2147483647)

end Sys2Proof
end

