-- ==== Sys2Proof/Decode.lean ====
section
/-! DEFINITION. The decoder and the encoder of command words (30_encoding R71 to R78). -/

namespace Sys2Proof

/-- Why a word spells no command (30_encoding R74). -/
inductive Illegal where
  /-- OPC is 0x00 or in 0x09..0xFF. -/
  | reservedOpcode (opc : Byte)
  /-- A must-be-zero operand bit of form N or form B is set. -/
  | operandBits
  deriving DecidableEq, Repr

/-- OPC = W[39:32] (30_encoding R71). -/
def opcField (w : CommandWord) : Byte := w.extractLsb' 32 8

/-- OPND = W[31:0] (30_encoding R71). -/
def opndField (w : CommandWord) : Word32 := w.extractLsb' 0 32

/-- Form N: every operand bit must be 0 (30_encoding R72). -/
def decodeFormN (i : Instr) (opnd : Word32) : Except Illegal Instr :=
  if opnd = 0 then .ok i else .error .operandBits

/-- Form B: raw = OPND[7:0], and OPND[31:8] must be 0 (30_encoding R72). -/
def decodeFormB (mk : Nat → Instr) (opnd : Word32) : Except Illegal Instr :=
  if opnd.extractLsb' 8 24 = 0 then .ok (mk (opnd.extractLsb' 0 8).toNat) else .error .operandBits

/-- Form T: target = OPND[31:0] as i32, used whole (30_encoding R72). -/
def decodeFormT (mk : Int → Instr) (opnd : Word32) : Except Illegal Instr :=
  .ok (mk opnd.toInt)

/-- The decoder of 30_encoding R78, after the MODE check: total, every word is a command or illegal by name. -/
def decode (w : CommandWord) : Except Illegal Instr :=
  match (opcField w).toNat with
  | 0x01 => decodeFormN .raw (opndField w)
  | 0x02 => decodeFormN .upos (opndField w)
  | 0x03 => decodeFormN .spos (opndField w)
  | 0x04 => decodeFormN .mpos (opndField w)
  | 0x05 => decodeFormB .setz (opndField w)
  | 0x06 => decodeFormN .setzc (opndField w)
  | 0x07 => decodeFormN .getz (opndField w)
  | 0x08 => decodeFormT .setabs (opndField w)
  | _ => .error (.reservedOpcode (opcField w))

/-- The opcode of a command (30_encoding R73). -/
def Instr.opcode : Instr → Byte
  | .raw => 0x01
  | .upos => 0x02
  | .spos => 0x03
  | .mpos => 0x04
  | .setz _ => 0x05
  | .setzc => 0x06
  | .getz => 0x07
  | .setabs _ => 0x08

/-- The operand field of a command (30_encoding R72): zero-extended raw for form B, the two's-complement target for
form T, zero for form N. -/
def Instr.operand : Instr → Word32
  | .raw => 0
  | .upos => 0
  | .spos => 0
  | .mpos => 0
  | .setz value => BitVec.ofNat 32 value
  | .setzc => 0
  | .getz => 0
  | .setabs target => BitVec.ofInt 32 target

/-- The command word of a command: OPC in bits 39:32, OPND in bits 31:0 (30_encoding R71). -/
def encode (i : Instr) : CommandWord := i.opcode ++ i.operand

/-- The instruction the decoder reads from the word whose low `nbits` bits are those of `w` and whose other bits
are 0; bit 0 is the least significant bit of the 40-bit word, as spec/opcode_table.json numbers it. A word longer
than 40 bits is no command word (30_encoding R71: "There is no other length"). -/
def decodeTableWord (nbits w : Nat) : Option Instr :=
  if w % 2 ^ nbits < 2 ^ 40 then
    match decode (BitVec.ofNat 40 (w % 2 ^ nbits)) with
    | .ok i => some i
    | .error _ => none
  else none

end Sys2Proof
end

