-- ==== Sys2Proof/Machine/Flags.lean ====
section
/-! DEFINITION. What a response reports: the status codes, the failure causes, WARN, and the 37-bit response word
(30_encoding R75; 60_exceptions R241). The block has no flags that persist (10_state R34). -/

namespace Sys2Proof.Machine

/-- MODE, the outcome of construction (10_state R31). -/
inductive Mode where
  | ready
  | failed
  deriving DecidableEq, Repr, Inhabited

/-- FAIL_CAUSE, why construction failed (10_state R31). -/
inductive FailCause where
  | none
  | config
  | bus
  | decode
  deriving DecidableEq, Repr, Inhabited

/-- The 2-bit code of a FAIL_CAUSE (60_exceptions R241). -/
def FailCause.code : FailCause → BitVec 2
  | .none => 0
  | .config => 1
  | .bus => 2
  | .decode => 3

/-- STATUS, one constructor per status the block produces (60_exceptions R241; 0x7..0xF are never produced). -/
inductive Status where
  | ok
  | decodeError
  | busError
  | illegalCommand
  | turnOverflow
  | notReady
  | configError
  deriving DecidableEq, Repr, Inhabited

/-- The 4-bit code of a STATUS (60_exceptions R241). -/
def Status.code : Status → BitVec 4
  | .ok => 0x0
  | .decodeError => 0x1
  | .busError => 0x2
  | .illegalCommand => 0x3
  | .turnOverflow => 0x4
  | .notReady => 0x5
  | .configError => 0x6

/-- One response: STATUS, WARN and DATA (30_encoding R75; 10_state R34). -/
structure Response where
  /-- STATUS. -/
  status : Status
  /-- WARN: a PersistenceError occurred (44_persistence R227). -/
  warn : Bool
  /-- DATA (30_encoding R76). -/
  data : Word32
  deriving DecidableEq, Repr, Inhabited

/-- The response word: STATUS in bits 36:33, WARN in bit 32, DATA in bits 31:0 (30_encoding R75). -/
def Response.word (r : Response) : ResponseWord :=
  (r.status.code ++ BitVec.ofBool r.warn) ++ r.data

end Sys2Proof.Machine
end

