-- ==== Sys2Proof/Config.lean ====
section
/-! DEFINITION. The fixed parameters of the block, the types of the agents' answers, and the values the spec leaves
open: the OPEN parameters and the free draws of the bus agent and the store agent, opaque constants with no body. -/

namespace Sys2Proof

/-- A calibration record `{zero: u8, turns: i32}`, passed as two typed fields (20_memory R54, R56). -/
structure Record where
  /-- The zero offset, u8. -/
  zero : BitVec 8
  /-- The turn count, i32 in two's complement. -/
  turns : BitVec 32
  deriving DecidableEq, Repr, Inhabited

/-- The bus agent's answer to `BusRead()` (20_memory R53; 60_exceptions R262). -/
inductive BusReply where
  /-- The pin pattern. -/
  | byte (p : Byte)
  /-- BusError. -/
  | fail
  deriving DecidableEq, Repr, Inhabited

/-- An agent's answer that carries no value: to `BusWrite(v)` (60_exceptions R262), or the store agent's whether it
serves a `StoreLoad()` at all (44_persistence R220: "The store may fail any request"). -/
inductive Ack where
  | ok
  | fail
  deriving DecidableEq, Repr, Inhabited

/-- The store agent's answer to `StoreSave(rec)` (44_persistence R223). -/
inductive SaveReply where
  | ok
  /-- The save failed; `left` is what the store's cell holds afterwards, a further draw (44_persistence R223). -/
  | fail (left : Option Record)
  deriving DecidableEq, Repr, Inhabited

/-- What `StoreLoad()` returns (44_persistence R222). -/
inductive LoadReply where
  /-- `Some(rec)`. -/
  | found (rec : Record)
  /-- `None`: no record exists or it is corrupt. -/
  | absent
  /-- `Fail`: an I/O failure. -/
  | fail
  deriving DecidableEq, Repr, Inhabited

/-- The configuration inputs, sampled at reset and fixed until the next reset (00_scope R6; 92 D30; 91 N5). -/
structure ConfigInputs where
  /-- PIN_ORDER: 8 values of 4 bits (10_state R24). -/
  pinOrder : Vector (BitVec 4) 8
  /-- REVERSE (10_state R25). -/
  reverse : Bool
  /-- PERSIST_CONFIGURED (10_state R25). -/
  persistConfigured : Bool
  deriving DecidableEq, Repr, Inhabited

/-- SENTINEL, the table value for "no valid position for this pattern" (00_scope R6). -/
def sentinel : Byte := 255

/-- TURNS_MIN = -2^31 + 128 (10_state R28). -/
def turnsMin : Int := -2147483520

/-- TURNS_MAX = 2^31 - 128 (10_state R28). -/
def turnsMax : Int := 2147483520

/-- The byte the reset sequence writes to the bus device (20_memory R52). -/
def busConfigureByte : Byte := 0xFF

/-- The "identity wiring", PIN_ORDER (8,7,6,5,4,3,2,1) (00_scope R6; 40_table_builder R102). -/
def identityWiring : Vector (BitVec 4) 8 := #v[8, 7, 6, 5, 4, 3, 2, 1]

/-- TRACK_SPEC: OPEN, no value assumed (00_scope R6; 92 D11). Log 2. -/
opaque Config.trackSpec : Vector Byte 16

/-- BUS_ADDR: OPEN, opaque to the block (00_scope R6; 92 D29). Log 2 and log 15. -/
opaque Config.busAddr : Nat

/-- The configuration inputs at the power-on reset: OPEN (00_scope R6; 92 D30). Log 2. -/
opaque Config.inputs : ConfigInputs

/-- What the store's cell holds at power-on: the store agent's own (44_persistence R220). Log 5. -/
opaque Config.storeCell : Option Record

/-- The free draw of the bus agent for a BusRead, given the number of requests made before it (60_exceptions R262;
93 I4). Log 4. -/
opaque Config.busRead : Nat → BusReply

/-- The free draw of the bus agent for a BusWrite (60_exceptions R262). Log 4. -/
opaque Config.busWrite : Nat → Ack

/-- The free draw of the store agent for a StoreLoad: whether it serves it (44_persistence R220, R222; 93 I5). Log 4. -/
opaque Config.storeLoad : Nat → Ack

/-- The free draw of the store agent for a StoreSave (44_persistence R223; 93 I5, I16). Log 4. -/
opaque Config.storeSave : Nat → SaveReply

end Sys2Proof
end

