-- ==== Sys2Proof/Machine/Operands.lean ====
section
/-! DEFINITION. The arithmetic on positions: the unsigned and signed position, the wraparound detector, and the values
SETABS computes from its target. Exact integers, narrowed where a register or a response is written. -/

namespace Sys2Proof.Machine

/-- `dir = REVERSE ? -1 : +1` (10_state R25). -/
def dir (reverse : Bool) : Int := if reverse then -1 else 1

/-- `sext7(u)`: u read as 7-bit two's complement (00_scope R10). -/
def sext7 (u : Nat) : Int := if u ≤ 63 then (u : Int) else (u : Int) - 128

/-- `upos(raw) = ((raw - ZERO) * dir) mod 128`, in 0..127 (41_position_reads R131). -/
def uposOf (reverse : Bool) (zero raw : BitVec 7) : Nat :=
  ((((raw.toNat : Int) - zero.toNat) * dir reverse) % 128).toNat

/-- `spos(raw) = sext7(upos(raw))`, in -64..63 (41_position_reads R134). -/
def sposOf (reverse : Bool) (zero raw : BitVec 7) : Int := sext7 (uposOf reverse zero raw)

/-- The wraparound detector: the turn count after a reading `s` with the last observed position `last`
(42_multiturn R160, R161: strict, more than half a turn). -/
def rollover (turns last s : Int) : Int :=
  if last - s > 64 then turns + 128
  else if s - last > 64 then turns - 128
  else turns

/-- TURNS may hold `t`: it lies in TURNS_MIN..TURNS_MAX (10_state R28). -/
def turnsInRange (t : Int) : Bool := decide (turnsMin ≤ t) && decide (t ≤ turnsMax)

/-- The value of TURNS whose turn number is `n`: `n` times 128, the low 7 bits hardwired to zero (10_state R28). -/
def turnsOf (n : BitVec 25) : Int := 128 * n.toInt

/-- TURNS as its 32-bit register: the turn number above 7 zero bits (10_state R28). -/
def turnsWord (n : BitVec 25) : BitVec 32 := n ++ 0#7

/-- The turn number of a turn count: its low 7 bits are discarded, being hardwired to zero (10_state R28). -/
def turnNumberOf (t : Int) : BitVec 25 := BitVec.ofInt 25 (t / 128)

/-- `lo = target mod 128`, the target's low 7 bits (43_calibration R186). -/
def targetLow (target : Int) : Nat := (target % 128).toNat

/-- `Z1 = (raw - dir * lo) mod 128`, the new zero offset of SETABS (43_calibration R186). -/
def absZero (reverse : Bool) (raw : BitVec 7) (target : Int) : Nat :=
  (((raw.toNat : Int) - dir reverse * targetLow target) % 128).toNat

/-- `s1 = sext7(lo)`, the last observed position against the new zero (43_calibration R186). -/
def absLast (target : Int) : Int := sext7 (targetLow target)

/-- `T1 = target - s1`, the new turn count of SETABS (43_calibration R186; 90_conflicts C3). -/
def absTurns (target : Int) : Int := target - absLast target

end Sys2Proof.Machine
end

