-- ==== Sys2Proof/Machine/Table.lean ====
section
/-! DEFINITION. The pattern-table ROM as memory, and its builder: reads and writes of one byte, BUILD, and the
legality of PIN_ORDER and TRACK_SPEC (20_memory R50; 40_table_builder R100 to R106). -/

namespace Sys2Proof.Machine

/-- Memory in its canonical form: the listed (address, byte) pairs, addresses strictly rising, no pair holding the
byte an unlisted address reads as. Log 12. -/
abbrev Memory := List Host.Cell

/-- What an unlisted address reads as: the sentinel every TABLE entry is initialised to (40_table_builder R101). -/
def Memory.blank : Byte := sentinel

/-- The byte at address `a` (20_memory R50: `MemRead(a, 1)`). -/
def Memory.read : Memory → Nat → Byte
  | [], _ => Memory.blank
  | (b, v) :: m, a => if a = b then v else Memory.read m a

/-- Puts the pair (a, v) before `m`, unless an unlisted address reads as v. -/
def Memory.place (a : Nat) (v : Byte) (m : Memory) : Memory :=
  if v = Memory.blank then m else (a, v) :: m

/-- Writes the byte at address `a`, keeping the canonical form. -/
def Memory.write : Memory → Nat → Byte → Memory
  | [], a, v => Memory.place a v []
  | (b, w) :: m, a, v =>
    if a < b then Memory.place a v ((b, w) :: m)
    else if a = b then Memory.place a v m
    else (b, w) :: Memory.write m a v

/-- The canonical form from address `lo` on: addresses at least `lo`, strictly rising, below 256 (every 8-bit index
and no other is an address, 20_memory R50), and no listed byte equal to the unlisted one. -/
def Memory.wfFrom : Nat → Memory → Bool
  | _, [] => true
  | lo, (b, v) :: m => decide (lo ≤ b) && decide (b < 256) && decide (v ≠ Memory.blank) && Memory.wfFrom (b + 1) m

/-- The canonical form holds. -/
def Memory.wf (m : Memory) : Bool := Memory.wfFrom 0 m

/-- `offset = ((pos - (1 - PIN_ORDER[pin]) * 16) mod 128) div 8` (40_table_builder R101), always in 0..15. -/
def trackOffset (pos : Nat) (phase : BitVec 4) : Fin 16 :=
  ⟨(((pos : Int) - (1 - (phase.toNat : Int)) * 16) % 128 / 8).toNat, by omega⟩

/-- `mask = 128 >> (pos mod 8)` (40_table_builder R101). -/
def trackMask (pos : Nat) : Byte := 128#8 >>> (pos % 8)

/-- The pin pattern of position `pos`: the value of `index` after the inner loop of BUILD (40_table_builder R101). -/
def pattern (track : Vector Byte 16) (order : Vector (BitVec 4) 8) (pos : Nat) : Byte :=
  (List.finRange 8).foldl
    (fun index pin =>
      if track[trackOffset pos order[pin]] &&& trackMask pos ≠ 0 then index ||| (1#8 <<< pin.val) else index)
    0

/-- BUILD: every entry the sentinel, then `TABLE[pattern(pos)] <- pos` for pos = 0..127 (40_table_builder R101).
Irreducible, so that comparing two states never runs it; `unfold build` opens it. -/
@[irreducible] def build (track : Vector Byte 16) (order : Vector (BitVec 4) 8) : Memory :=
  (List.range 128).foldl (fun table pos => table.write (pattern track order pos).toNat (BitVec.ofNat 8 pos)) []

/-- PIN_ORDER is legal: each value in 1..8, no value twice (40_table_builder R103). -/
def legalPinOrder (order : Vector (BitVec 4) 8) : Bool :=
  order.toList.all (fun v => decide (1 ≤ v.toNat) && decide (v.toNat ≤ 8)) && decide order.toList.Nodup

/-- TRACK_SPEC is legal: the 128 patterns are pairwise distinct (40_table_builder R104), tested under the identity
wiring (92 D10), since a legal PIN_ORDER only permutes the bits of a pattern.
Irreducible, as `build`. -/
@[irreducible] def legalTrack (track : Vector Byte 16) : Bool :=
  decide ((List.range 128).map (pattern track identityWiring)).Nodup

/-- Track bit k of the circular 128-bit track, most significant bit of each byte first (40_table_builder R102). -/
def trackBit (track : Vector Byte 16) (k : Nat) : Bool :=
  (track[(⟨k / 8 % 16, by omega⟩ : Fin 16)]).getLsbD (7 - k % 8)

/-- The word w_r of the legality test of 40_table_builder R104: bit j is track bit 16 j + r. -/
def trackWord (track : Vector Byte 16) (r : Nat) : Byte :=
  (List.finRange 8).foldl (fun w j => if trackBit track (16 * j.val + r) then w ||| (1#8 <<< j.val) else w) 0

end Sys2Proof.Machine
end

