-- ==== Sys2Proof/Machine/Boot.lean ====
section
/-! DEFINITION. The reset sequence as a function of the configuration and the agents' answers: LOAD, and the registers,
the response and the requests that a reset leaves (70_reset R281; 44_persistence R226; 30_encoding R77). -/

namespace Sys2Proof.Machine

/-- A request of the block on its bus port or its store port (30_encoding R70; 20_memory R52, R54). Every bus request
carries BUS_ADDR unchanged (92 D29). -/
inductive Request where
  | busRead (address : Nat)
  | busWrite (address : Nat) (v : Byte)
  | storeLoad
  | storeSave (rec : Record)
  deriving DecidableEq, Repr, Inhabited

/-- The registers the reset sequence writes (70_reset R281). -/
structure Registers where
  table : Memory
  zero : BitVec 7
  turnNumber : BitVec 25
  last : BitVec 8
  lastSaved : Option Record
  mode : Mode
  failCause : FailCause
  deriving DecidableEq, Repr

/-- The answers the agents would give to the reset sequence's requests, each used only where the request is made. -/
structure BootAnswers where
  /-- To `BusWrite(0xFF)`. -/
  write : Ack
  /-- To `StoreLoad()`. -/
  load : LoadReply
  /-- To the default `BusRead()`. -/
  read : BusReply
  deriving DecidableEq, Repr

/-- What the reset sequence leaves: registers, the reset response, and the requests made, oldest first. -/
structure BootResult where
  registers : Registers
  response : Response
  requests : List Request
  deriving DecidableEq, Repr

/-- A loaded record the registers can hold (44_persistence R226; 92 D20): zero at most 127, turns a multiple of 128 in
TURNS_MIN..TURNS_MAX. -/
def validRecord (rec : Record) : Bool :=
  decide (rec.zero.toNat ≤ 127) && decide (rec.turns.toInt % 128 = 0) && turnsInRange rec.turns.toInt

/-- The record LOAD returns (44_persistence R226; R221 where no store is configured). -/
def loadedRecord (persist : Bool) (reply : LoadReply) : Option Record :=
  if persist then
    match reply with
    | .found rec => if validRecord rec then some rec else none
    | .absent => none
    | .fail => none
  else none

/-- LOAD warns: the load failed, or the loaded record is invalid (44_persistence R226; 90_conflicts C9). -/
def loadWarns (persist : Bool) (reply : LoadReply) : Bool :=
  if persist then
    match reply with
    | .found rec => !validRecord rec
    | .absent => false
    | .fail => true
  else false

/-- The store agent's answer to a StoreLoad it serves: what its cell holds, `None` when it holds no record
(44_persistence R220, R222). Log 5. -/
def loadReplyOf (cell : Option Record) (served : Ack) : LoadReply :=
  match served with
  | .fail => .fail
  | .ok =>
    match cell with
    | some rec => .found rec
    | none => .absent

/-- The position a pattern decodes to, and `none` on the sentinel (40_table_builder R108). TABLE entries are 7-bit
positions but for the sentinel. Log 13. -/
def lookupRaw (table : Memory) (p : Byte) : Option (BitVec 7) :=
  if table.read p.toNat = sentinel then none else some ((table.read p.toNat).setWidth 7)

/-- A reset that fails: MODE, FAIL_CAUSE and the status it reports (70_reset R281). -/
def bootFail (r : Registers) (cause : FailCause) (status : Status) (warn : Bool) (requests : List Request) :
    BootResult :=
  { registers := { r with mode := .failed, failCause := cause }
    response := { status := status, warn := warn, data := 0 }
    requests := requests }

/-- Steps 5 and 6 with the calibration registers' values: LAST 0, READY (70_reset R281). -/
def bootReady (r : Registers) (zero : BitVec 7) (turnNumber : BitVec 25) (warn : Bool) (requests : List Request) :
    BootResult :=
  { registers :=
      { r with zero := zero, turnNumber := turnNumber, last := 0, mode := .ready, failCause := .none }
    response := { status := .ok, warn := warn, data := 0 }
    requests := requests }

/-- Step 5 without a record: the default raw read (70_reset R281; 92 D17). -/
def bootDefault (busAddr : Nat) (read : BusReply) (r : Registers) (warn : Bool) (requests : List Request) :
    BootResult :=
  match read with
  | .fail => bootFail r .bus .busError warn (requests ++ [.busRead busAddr])
  | .byte p =>
    match lookupRaw r.table p with
    | none => bootFail r .decode .decodeError warn (requests ++ [.busRead busAddr])
    | some raw0 => bootReady r raw0 0 warn (requests ++ [.busRead busAddr])

/-- Steps 4 and 5: LOAD, then the calibration registers (70_reset R281). -/
def bootCalibrate (busAddr : Nat) (persist : Bool) (answers : BootAnswers) (r : Registers) (requests : List Request) :
    BootResult :=
  match loadedRecord persist answers.load with
  | some rec =>
    bootReady { r with lastSaved := some rec } (rec.zero.setWidth 7) (turnNumberOf rec.turns.toInt)
      (loadWarns persist answers.load) (requests ++ (if persist then [.storeLoad] else []))
  | none =>
    bootDefault busAddr answers.read r (loadWarns persist answers.load)
      (requests ++ (if persist then [.storeLoad] else []))

/-- The reset sequence (70_reset R281): LAST_SAVED <- None, validation, BUILD, the bus write, LOAD and the calibration
registers. -/
def boot (track : Vector Byte 16) (busAddr : Nat) (inputs : ConfigInputs) (answers : BootAnswers) (r : Registers) :
    BootResult :=
  if legalPinOrder inputs.pinOrder && legalTrack track then
    match answers.write with
    | .fail =>
      bootFail { r with lastSaved := none, table := build track inputs.pinOrder } .bus .busError false
        [.busWrite busAddr busConfigureByte]
    | .ok =>
      bootCalibrate busAddr inputs.persistConfigured answers
        { r with lastSaved := none, table := build track inputs.pinOrder } [.busWrite busAddr busConfigureByte]
  else bootFail { r with lastSaved := none } .config .configError false []

end Sys2Proof.Machine
end

