-- ==== Sys2Proof/Machine/State.lean ====
section
/-! DEFINITION. The state of the block and of the agents around it, the reasons a step can stop, and the state after
the power-on reset (10_state R20 to R33). -/

namespace Sys2Proof.Machine

/-- The block raises no fault: it has no traps, and an error is a status in a response (60_exceptions R248). So no
constructor stands here, and nothing raises one: safe. -/
inductive Fault where
  deriving DecidableEq, Repr

/-- Why an instruction has no meaning in the model. -/
inductive Refusal where
  /-- The instruction of that mnemonic is not modelled. Raised by an arm of `exec` that has no meaning yet; no arm
  raises it now. Safe: the machine stops, and nothing can be proved of what it would have done. -/
  | notModelled (mnemonic : String)
  deriving DecidableEq, Repr

/-- What the host does next at the block's inputs (30_encoding R70; 60_exceptions R261). -/
inductive HostEvent where
  /-- A command word at the command port. -/
  | command (w : CommandWord)
  /-- The reset input, with the configuration inputs sampled then (70_reset R280; 91 N5). -/
  | reset (inputs : ConfigInputs)
  deriving DecidableEq, Repr

/-- The state: the block's constants, configuration and registers (10_state R32), its response port, the store agent's
record cell, and the model's own fields for what the agents do next and what the block has asked of them. -/
structure State where
  /-- TRACK_SPEC[0..15] (10_state R23). -/
  trackSpec : Vector Byte 16
  /-- BUS_ADDR (00_scope R6). -/
  busAddr : Nat
  /-- PIN_ORDER[0..7] (10_state R24). -/
  pinOrder : Vector (BitVec 4) 8
  /-- REVERSE (10_state R25). -/
  reverse : Bool
  /-- PERSIST_CONFIGURED (10_state R25). -/
  persistConfigured : Bool
  /-- TABLE[0..255], the pattern-table ROM (10_state R26). -/
  table : Memory
  /-- ZERO (10_state R27). -/
  zero : BitVec 7
  /-- The turn number N of TURNS = 128 N (10_state R28). Log 11. -/
  turnNumber : BitVec 25
  /-- LAST, an i8 (10_state R29). -/
  last : BitVec 8
  /-- LAST_SAVED (10_state R30). -/
  lastSaved : Option Record
  /-- MODE (10_state R31). -/
  mode : Mode
  /-- FAIL_CAUSE (10_state R31). -/
  failCause : FailCause
  /-- The response port: the response to the last command or reset (30_encoding R70, R75, R77). Log 9. -/
  response : Option Response
  /-- The store agent's record cell (44_persistence R220). Log 5. -/
  storeCell : Option Record
  /-- What the host does next, oldest first. Log 1. -/
  host : List HostEvent
  /-- The bus agent's coming answers to BusRead, oldest first. Log 4. -/
  busReads : List BusReply
  /-- The bus agent's coming answers to BusWrite, oldest first. Log 4. -/
  busWrites : List Ack
  /-- Whether the store agent serves its coming StoreLoad requests, oldest first. Log 4. -/
  storeLoads : List Ack
  /-- The store agent's coming answers to StoreSave, oldest first. Log 4. -/
  storeSaves : List SaveReply
  /-- Every request the block has made, oldest first. Log 10. -/
  requests : List Request
  deriving DecidableEq, Repr

/-- The registers before the first reset: values that log 7 names. The spec gives them none (10_state R31). -/
def Registers.powerOn : Registers :=
  { table := [], zero := 0, turnNumber := 0, last := 0, lastSaved := none, mode := .failed, failCause := .config }

/-- What the power-on reset leaves: the reset sequence over the OPEN parameters and the agents' free draws
(70_reset R280, R281). -/
def State.powerOnBoot : BootResult :=
  boot Config.trackSpec Config.busAddr Config.inputs
    { write := Config.busWrite 0
      load := loadReplyOf Config.storeCell (Config.storeLoad 0)
      read := Config.busRead 0 }
    Registers.powerOn

/-- The machine right after the power-on reset: the reset values of 10_state R32, and the reset response of
30_encoding R77 on the response port. Nothing is placed at the command port. Log 1. -/
def State.reset : State :=
  { trackSpec := Config.trackSpec
    busAddr := Config.busAddr
    pinOrder := Config.inputs.pinOrder
    reverse := Config.inputs.reverse
    persistConfigured := Config.inputs.persistConfigured
    table := State.powerOnBoot.registers.table
    zero := State.powerOnBoot.registers.zero
    turnNumber := State.powerOnBoot.registers.turnNumber
    last := State.powerOnBoot.registers.last
    lastSaved := State.powerOnBoot.registers.lastSaved
    mode := State.powerOnBoot.registers.mode
    failCause := State.powerOnBoot.registers.failCause
    response := some State.powerOnBoot.response
    storeCell := Config.storeCell
    host := []
    busReads := []
    busWrites := []
    storeLoads := []
    storeSaves := []
    requests := State.powerOnBoot.requests }

end Sys2Proof.Machine
end

