-- ==== Sys2Proof/Machine/Ops.lean ====
section
/-! DEFINITION. The shared operations of the commands: the ports to the agents, the table lookup, readRaw, ending a
command with an error or a result, and SAVE (00_scope R10; 40_table_builder R108; 44_persistence R224). -/

namespace Sys2Proof.Machine

/-- TURNS as an integer (10_state R28). -/
def State.turns (s : State) : Int := turnsOf s.turnNumber

/-- The bus agent's answer to a BusRead made now (60_exceptions R262). -/
def State.nextBusRead (s : State) : BusReply :=
  match s.busReads with
  | r :: _ => r
  | [] => Config.busRead s.requests.length

/-- The bus agent's answer to a BusWrite made now (60_exceptions R262). -/
def State.nextBusWrite (s : State) : Ack :=
  match s.busWrites with
  | r :: _ => r
  | [] => Config.busWrite s.requests.length

/-- The store agent's answer to a StoreLoad made now (44_persistence R222). -/
def State.nextStoreLoad (s : State) : LoadReply :=
  match s.storeLoads with
  | r :: _ => loadReplyOf s.storeCell r
  | [] => loadReplyOf s.storeCell (Config.storeLoad s.requests.length)

/-- The store agent's answer to a StoreSave made now (44_persistence R223). -/
def State.nextStoreSave (s : State) : SaveReply :=
  match s.storeSaves with
  | r :: _ => r
  | [] => Config.storeSave s.requests.length

/-- The block makes the request `q`: it is recorded, and the agent it goes to has used its next answer. -/
def State.issue (s : State) (q : Request) : State :=
  match q with
  | .busRead _ => { s with busReads := s.busReads.tail, requests := s.requests ++ [q] }
  | .busWrite _ _ => { s with busWrites := s.busWrites.tail, requests := s.requests ++ [q] }
  | .storeLoad => { s with storeLoads := s.storeLoads.tail, requests := s.requests ++ [q] }
  | .storeSave _ => { s with storeSaves := s.storeSaves.tail, requests := s.requests ++ [q] }

/-- `MemRead(p, 1)`: the TABLE entry at index p (20_memory R50). -/
def State.readTable (s : State) (p : Byte) : Byte := s.table.read p.toNat

/-- `raise E(info)`: the command ends with E's status, DATA = info, WARN = 0. The staged writes are the caller's and are
not made (00_scope R10; 60_exceptions R244). This is the block's one way to report an error: it has no traps, so nothing
is saved and there is no return (60_exceptions R248). -/
def State.raise (s : State) (status : Status) (info : Word32) : State :=
  { s with response := some { status := status, warn := false, data := info } }

/-- `respond(d)`: the command ends with STATUS = OK and DATA = d, WARN as given (00_scope R10). -/
def State.respond (s : State) (warn : Bool) (data : Word32) : State :=
  { s with response := some { status := .ok, warn := warn, data := data } }

/-- A command's meaning: NOT_READY with the FAIL_CAUSE code while MODE = FAILED, the command's body otherwise
(60_exceptions R243; 30_encoding R78). A command always answers, so the machine always goes on. -/
def State.command (s : State) (body : State → State) : Host.Outcome State Fault Refusal :=
  .next
    (match s.mode with
    | .failed => s.raise .notReady (s.failCause.code.setWidth 32)
    | .ready => body s)

/-- An illegal word: ILLEGAL_COMMAND with DATA = 0, but NOT_READY first (30_encoding R74; 60_exceptions R245, R246). -/
def State.illegalCommand (s : State) : Host.Outcome State Fault Refusal :=
  s.command (fun s => s.raise .illegalCommand 0)

/-- How a `readRaw` ends (40_table_builder R108). -/
inductive Reading where
  /-- The bus read failed. -/
  | busError
  /-- The pattern p hit the sentinel. -/
  | sentinel (p : Byte)
  /-- The pattern p decodes to the raw position. -/
  | position (p : Byte) (raw : BitVec 7)
  deriving DecidableEq, Repr

/-- What a `readRaw` made now reads: the bus answer, then the table lookup (40_table_builder R108). -/
def State.reading (s : State) : Reading :=
  match s.nextBusRead with
  | .fail => .busError
  | .byte p =>
    match lookupRaw s.table p with
    | none => .sentinel p
    | some raw => .position p raw

/-- `readRaw()`: one bus transaction; BUS_ERROR or DECODE_ERROR(p) ends the command, a valid position goes on to the
rest of the command (40_table_builder R108, R109). -/
def State.withRaw (s : State) (rest : BitVec 7 → State → State) : State :=
  match s.reading with
  | .busError => (s.issue (.busRead s.busAddr)).raise .busError 0
  | .sentinel p => (s.issue (.busRead s.busAddr)).raise .decodeError (p.setWidth 32)
  | .position _ raw => rest raw (s.issue (.busRead s.busAddr))

/-- `upos(raw)` over the block's ZERO and REVERSE (41_position_reads R131). -/
def State.upos (s : State) (raw : BitVec 7) : Nat := uposOf s.reverse s.zero raw

/-- `spos(raw)` over the block's ZERO and REVERSE (41_position_reads R134). -/
def State.spos (s : State) (raw : BitVec 7) : Int := sposOf s.reverse s.zero raw

/-- The record SAVE sends: `{zero: zext_8(ZERO), turns: TURNS}` (44_persistence R224). -/
def State.record (s : State) : Record :=
  { zero := s.zero.setWidth 8, turns := turnsWord s.turnNumber }

/-- SAVE makes a StoreSave request: a store is configured and the record differs from LAST_SAVED (44_persistence R221,
R224). -/
def State.saveNeeded (s : State) : Bool :=
  s.persistConfigured && decide (s.lastSaved ≠ some s.record)

/-- SAVE warns: its StoreSave fails (44_persistence R224, R227). -/
def State.saveWarns (s : State) : Bool :=
  s.saveNeeded && decide (s.nextStoreSave ≠ .ok)

/-- `SAVE()`: at most one StoreSave request; LAST_SAVED changes only when it succeeds. The store's cell holds the record
after a success, and what the store's draw says after a failure (44_persistence R223, R224, R225). -/
def State.save (s : State) : State :=
  if s.saveNeeded then
    match s.nextStoreSave with
    | .ok => { s.issue (.storeSave s.record) with lastSaved := some s.record, storeCell := some s.record }
    | .fail left => { s.issue (.storeSave s.record) with storeCell := left }
  else s

/-- A command's end after a commit that saves: SAVE, then the response with its WARN (20_memory R62 order 6 to 8). -/
def State.saveAndRespond (s : State) (data : Word32) : State :=
  s.save.respond s.saveWarns data

end Sys2Proof.Machine
end

