-- ==== Sys2Proof/Machine/Calibration.lean ====
section
/-! DEFINITION. The calibration commands SETZ, SETZC, GETZ and SETABS (43_calibration R180 to R190). -/

namespace Sys2Proof.Machine

/-- SETZ: ZERO <- raw mod 128, SAVE; no bus access (43_calibration R180, R181). -/
def execSetz (value : Nat) (s : State) : Host.Outcome State Fault Refusal :=
  s.command fun s => { s with zero := BitVec.ofNat 7 value }.saveAndRespond 0

/-- SETZC: ZERO <- raw from one reading, SAVE (43_calibration R181, R182). -/
def execSetzc (s : State) : Host.Outcome State Fault Refusal :=
  s.command fun s => s.withRaw fun raw s => { s with zero := raw }.saveAndRespond 0

/-- GETZ: DATA = zext_32(ZERO); no bus access (43_calibration R184). -/
def execGetz (s : State) : Host.Outcome State Fault Refusal :=
  s.command fun s => s.respond false (s.zero.setWidth 32)

/-- SETABS after its reading: TURN_OVERFLOW commits nothing; otherwise ZERO, LAST and TURNS are committed and SAVE runs
(43_calibration R186, R187). -/
def State.recalibrate (s : State) (target : Int) (raw : BitVec 7) : State :=
  if turnsInRange (absTurns target) then
    { s with
      zero := BitVec.ofNat 7 (absZero s.reverse raw target)
      last := BitVec.ofInt 8 (absLast target)
      turnNumber := turnNumberOf (absTurns target) }.saveAndRespond 0
  else s.raise .turnOverflow 0

/-- SETABS: one reading, then ZERO, LAST and TURNS so that it reports as `target` (43_calibration R186). -/
def execSetabs (target : Int) (s : State) : Host.Outcome State Fault Refusal :=
  s.command fun s => s.withRaw fun raw s => s.recalibrate target raw

end Sys2Proof.Machine
end

