-- ==== Sys2Proof/Machine/MultiTurn.lean ====
section
/-! DEFINITION. The wraparound detector and position accumulator, MPOS (42_multiturn R160 to R168). -/

namespace Sys2Proof.Machine

/-- MPOS after its reading, with s = `p` and T1 = `t1`: TURN_OVERFLOW commits nothing; otherwise TURNS and LAST are
committed, SAVE runs if a rollover was counted, and DATA = T1 + s (42_multiturn R160, R164, R166, R167). -/
def State.accumulate (s : State) (p t1 : Int) : State :=
  if turnsInRange t1 then
    if t1 ≠ s.turns then
      { s with turnNumber := turnNumberOf t1, last := BitVec.ofInt 8 p }.saveAndRespond (BitVec.ofInt 32 (t1 + p))
    else
      { s with turnNumber := turnNumberOf t1, last := BitVec.ofInt 8 p }.respond false (BitVec.ofInt 32 (t1 + p))
  else s.raise .turnOverflow 0

/-- MPOS (42_multiturn R160, R161): the comparison uses LAST and TURNS as they stood before the command. -/
def execMpos (s : State) : Host.Outcome State Fault Refusal :=
  s.command fun s => s.withRaw fun raw s =>
    s.accumulate (s.spos raw) (rollover s.turns s.last.toInt (s.spos raw))

end Sys2Proof.Machine
end

