-- ==== Sys2Proof/Machine/Position.lean ====
section
/-! DEFINITION. The single-turn position reads RAW, UPOS and SPOS (41_position_reads R130 to R136). -/

namespace Sys2Proof.Machine

/-- RAW: DATA = zext_32(raw) (41_position_reads R130). -/
def execRaw (s : State) : Host.Outcome State Fault Refusal :=
  s.command fun s => s.withRaw fun raw s => s.respond false (raw.setWidth 32)

/-- UPOS: DATA = zext_32(upos(raw)) (41_position_reads R132, R133). -/
def execUpos (s : State) : Host.Outcome State Fault Refusal :=
  s.command fun s => s.withRaw fun raw s => s.respond false (BitVec.ofNat 32 (s.upos raw))

/-- SPOS: DATA = sext_32(spos(raw)) (41_position_reads R134). -/
def execSpos (s : State) : Host.Outcome State Fault Refusal :=
  s.command fun s => s.withRaw fun raw s => s.respond false (BitVec.ofInt 32 (s.spos raw))

end Sys2Proof.Machine
end

