-- ==== Sys2Proof/Machine/Dispatch.lean ====
section
/-! DEFINITION. One arm per constructor of Instr, each one direct call of its meaning. -/

namespace Sys2Proof.Machine

/-- The meaning of a decoded command (30_encoding R73). -/
def exec (i : Instr) (s : State) : Host.Outcome State Fault Refusal :=
  match i with
  | .raw => Sys2Proof.Machine.execRaw s
  | .upos => Sys2Proof.Machine.execUpos s
  | .spos => Sys2Proof.Machine.execSpos s
  | .mpos => Sys2Proof.Machine.execMpos s
  | .setz value => Sys2Proof.Machine.execSetz value s
  | .setzc => Sys2Proof.Machine.execSetzc s
  | .getz => Sys2Proof.Machine.execGetz s
  | .setabs target => Sys2Proof.Machine.execSetabs target s

end Sys2Proof.Machine
end

