-- ==== Sys2Proof/Machine/Reset.lean ====
section
/-! DEFINITION. A reset asserted by the host: the reset sequence run on a state, one atomic step (70_reset R280, R281). -/

namespace Sys2Proof.Machine

/-- The registers of a state that the reset sequence writes. -/
def State.registers (s : State) : Registers :=
  { table := s.table
    zero := s.zero
    turnNumber := s.turnNumber
    last := s.last
    lastSaved := s.lastSaved
    mode := s.mode
    failCause := s.failCause }

/-- The answers the agents would give to a reset made now. -/
def State.bootAnswers (s : State) : BootAnswers :=
  { write := s.nextBusWrite, load := s.nextStoreLoad, read := s.nextBusRead }

/-- What the reset sequence leaves when the reset input is asserted now with these configuration inputs. -/
def State.bootResult (s : State) (inputs : ConfigInputs) : BootResult :=
  boot s.trackSpec s.busAddr inputs s.bootAnswers s.registers

/-- The reset sequence on a state: the configuration inputs are sampled, the registers and the reset response are those
the sequence leaves, and its requests are made (70_reset R281; 30_encoding R77; 91 N5). -/
def State.runReset (s : State) (inputs : ConfigInputs) : State :=
  let r := s.bootResult inputs
  let s' := r.requests.foldl State.issue s
  { s' with
    pinOrder := inputs.pinOrder
    reverse := inputs.reverse
    persistConfigured := inputs.persistConfigured
    table := r.registers.table
    zero := r.registers.zero
    turnNumber := r.registers.turnNumber
    last := r.registers.last
    lastSaved := r.registers.lastSaved
    mode := r.registers.mode
    failCause := r.registers.failCause
    response := some r.response }

end Sys2Proof.Machine
end

