-- ==== Sys2Proof/Machine/Step.lean ====
section
/-! DEFINITION. One step: the block takes the host's next request and answers it whole (20_memory R57, R62). -/

namespace Sys2Proof.Machine

/-- A command word taken from the command port: decoded and executed, or answered as illegal (30_encoding R78). -/
def State.runWord (s : State) (w : CommandWord) : Host.Outcome State Fault Refusal :=
  match decode w with
  | .ok i => exec i s
  | .error _ => s.illegalCommand

/-- One step of the machine: a command, a reset, or nothing where the host asks nothing (60_exceptions R260, R267). -/
def step (s : State) : Host.Outcome State Fault Refusal :=
  match s.host with
  | [] => .next s
  | .command w :: rest => { s with host := rest }.runWord w
  | .reset inputs :: rest => .next ({ s with host := rest }.runReset inputs)

/-- `s` with the word whose low `nbits` bits are those of `w`, its other bits 0, as the next command at the command port,
and the block READY for it: while MODE = FAILED the block runs no command at all (60_exceptions R243). Log 1. -/
def State.withFetchWord (s : State) (nbits w : Nat) : State :=
  { s with
    host := .command (BitVec.ofNat 40 (w % 2 ^ nbits)) :: s.host
    mode := .ready
    failCause := .none }

end Sys2Proof.Machine
end

