-- ==== Sys2Proof/Machine/Assembler.lean ====
section
/-! DEFINITION. The assembly syntax of the commands: one line of text to one command word (30_encoding R79). -/

namespace Sys2Proof.Machine

/-- Adds the word read so far to the words after it, if it holds a character. -/
def asmPush (word : List Char) (words : List (List Char)) : List (List Char) :=
  match word with
  | [] => words
  | _ :: _ => word :: words

/-- The word a line begins with and the words after it: blanks and tabs separate words, and a comment starts with `;`
(30_encoding R79). Log 14. -/
def asmSplit : List Char → List Char × List (List Char)
  | [] => ([], [])
  | c :: cs =>
    if c = ';' then ([], [])
    else if c = ' ' ∨ c = '\t' then ([], asmPush (asmSplit cs).1 (asmSplit cs).2)
    else (c :: (asmSplit cs).1, (asmSplit cs).2)

/-- The words of a line. -/
def asmWords (line : List Char) : List (List Char) := asmPush (asmSplit line).1 (asmSplit line).2

/-- The value of a decimal digit. -/
def decDigit (c : Char) : Option Nat :=
  if 48 ≤ c.toNat ∧ c.toNat ≤ 57 then some (c.toNat - 48) else none

/-- The value of a hexadecimal digit, in either letter case. Log 14. -/
def hexDigit (c : Char) : Option Nat :=
  if 48 ≤ c.toNat ∧ c.toNat ≤ 57 then some (c.toNat - 48)
  else if 97 ≤ c.toNat ∧ c.toNat ≤ 102 then some (c.toNat - 87)
  else if 65 ≤ c.toNat ∧ c.toNat ≤ 70 then some (c.toNat - 55)
  else none

/-- The number that digits spell in a base, after the value `acc` of the digits before them. -/
def asmDigits (base : Nat) (digit : Char → Option Nat) : Nat → List Char → Option Nat
  | acc, [] => some acc
  | acc, c :: cs =>
    match digit c with
    | some d => asmDigits base digit (acc * base + d) cs
    | none => none

/-- An unsigned immediate: decimal, or `0x` and hexadecimal digits, at least one digit (30_encoding R79). -/
def asmNat : List Char → Option Nat
  | '0' :: 'x' :: c :: cs => asmDigits 16 hexDigit 0 (c :: cs)
  | c :: cs => asmDigits 10 decDigit 0 (c :: cs)
  | [] => none

/-- A form B immediate, `#imm` (30_encoding R79). -/
def asmImmB : List Char → Option Nat
  | '#' :: cs => asmNat cs
  | _ => none

/-- A form T immediate, `#imm`: hexadecimal, or decimal with an optional leading `-` (30_encoding R79). -/
def asmImmT : List Char → Option Int
  | '#' :: '-' :: c :: cs => (asmDigits 10 decDigit 0 (c :: cs)).map fun n => -(n : Int)
  | '#' :: cs => (asmNat cs).map Int.ofNat
  | _ => none

/-- The command a line of words spells: `MNEMONIC` for form N, `MNEMONIC #imm` for forms B and T (30_encoding R79). -/
def asmInstr : List (List Char) → Option Instr
  | [['R', 'A', 'W']] => some .raw
  | [['U', 'P', 'O', 'S']] => some .upos
  | [['S', 'P', 'O', 'S']] => some .spos
  | [['M', 'P', 'O', 'S']] => some .mpos
  | [['S', 'E', 'T', 'Z'], imm] => (asmImmB imm).map Instr.setz
  | [['S', 'E', 'T', 'Z', 'C']] => some .setzc
  | [['G', 'E', 'T', 'Z']] => some .getz
  | [['S', 'E', 'T', 'A', 'B', 'S'], imm] => (asmImmT imm).map Instr.setabs
  | _ => none

/-- What a line of assembly text is. -/
inductive AsmLine where
  /-- No command: blank, or a comment only. Log 14. -/
  | empty
  /-- One command word. -/
  | word (w : CommandWord)
  /-- Not a line of the syntax, or an immediate out of its range. -/
  | malformed
  deriving DecidableEq, Repr

/-- Assembles one line: the immediate must lie in the range of its form (30_encoding R79). -/
def assemble (line : List Char) : AsmLine :=
  match asmWords line with
  | [] => .empty
  | w :: ws =>
    match asmInstr (w :: ws) with
    | some i => if i.wf then .word (encode i) else .malformed
    | none => .malformed

end Sys2Proof.Machine
end

