-- ==== Sys2Proof/Safety.lean ====
section
/-! DEFINITION. The terms the statements use: the invariant of the block, a reading, the effect of one bus read and of
SAVE written out from the rules, and what each command may ask and report. -/

namespace Sys2Proof.Machine

/-- What holds of a READY block: the ranges of TURNS and LAST (10_state R33), a legal configuration with TABLE built
from it (40_table_builder R105; 20_memory R59), no failure cause (10_state R32), and a LAST_SAVED the registers can
hold (44_persistence R225, R226). -/
def State.Calibrated (s : State) : Prop :=
  turnsInRange s.turns = true ∧
  (-64 ≤ s.last.toInt ∧ s.last.toInt ≤ 63) ∧
  legalPinOrder s.pinOrder = true ∧
  legalTrack s.trackSpec = true ∧
  s.table = build s.trackSpec s.pinOrder ∧
  s.failCause = .none ∧
  (∀ rec, s.lastSaved = some rec → validRecord rec = true)

/-- The invariant that every step keeps. TABLE keeps its canonical form in every mode; a FAILED block has a cause; a READY
block is calibrated. -/
def State.Inv (s : State) : Prop :=
  s.table.wf = true ∧
  (s.mode = .failed → s.failCause ≠ .none) ∧
  (s.mode = .ready → s.Calibrated)

/-- The state after one bus read: the bus agent has used one answer, and the request is recorded with BUS_ADDR
(20_memory R52, R59). -/
def State.afterBusRead (s : State) : State :=
  { s with busReads := s.busReads.tail, requests := s.requests ++ [.busRead s.busAddr] }

/-- A readRaw made now reads the pattern `p`, whose TABLE entry is the position `raw` in 0..127 (40_table_builder R108). -/
def State.ReadsPosition (s : State) (p : Byte) (raw : BitVec 7) : Prop :=
  s.nextBusRead = .byte p ∧ s.readTable p = raw.setWidth 8

/-- The integer `(raw - ZERO) * dir`, before any reduction (41_position_reads R131). -/
def State.rawOffset (s : State) (raw : BitVec 7) : Int :=
  ((raw.toNat : Int) - s.zero.toNat) * (if s.reverse then -1 else 1)

/-- `v` is the signed position of `raw`: the one value in -64..63 congruent to the offset modulo 128 (41_position_reads
R134, R135). -/
def State.IsSigned (s : State) (raw : BitVec 7) (v : Int) : Prop :=
  -64 ≤ v ∧ v ≤ 63 ∧ (v - s.rawOffset raw) % 128 = 0

/-- The state `t` and the warning `w` that SAVE leaves from `s`, case by case (44_persistence R221, R223, R224, R225):
no request; a request that succeeds; a request that fails and leaves the store's cell as the store's draw says. -/
def State.Saves (s t : State) (w : Bool) : Prop :=
  ((s.persistConfigured = false ∨ s.lastSaved = some s.record) ∧ t = s ∧ w = false) ∨
  (s.persistConfigured = true ∧ s.lastSaved ≠ some s.record ∧ s.nextStoreSave = .ok ∧ w = false ∧
    t = { s with
      storeSaves := s.storeSaves.tail
      requests := s.requests ++ [.storeSave s.record]
      lastSaved := some s.record
      storeCell := some s.record }) ∨
  (s.persistConfigured = true ∧ s.lastSaved ≠ some s.record ∧ w = true ∧ ∃ left, s.nextStoreSave = .fail left ∧
    t = { s with
      storeSaves := s.storeSaves.tail
      requests := s.requests ++ [.storeSave s.record]
      storeCell := left })

/-- The commands that read the encoder (20_memory R58). -/
def readsEncoder : Instr → Bool
  | .raw => true
  | .upos => true
  | .spos => true
  | .mpos => true
  | .setz _ => false
  | .setzc => true
  | .getz => false
  | .setabs _ => true

/-- The commands that may call SAVE (20_memory R58; 44_persistence R224). -/
def maySave : Instr → Bool
  | .raw => false
  | .upos => false
  | .spos => false
  | .mpos => true
  | .setz _ => true
  | .setzc => true
  | .getz => false
  | .setabs _ => true

/-- The commands that write ZERO (10_state R27). -/
def writesZero : Instr → Bool
  | .raw => false
  | .upos => false
  | .spos => false
  | .mpos => false
  | .setz _ => true
  | .setzc => true
  | .getz => false
  | .setabs _ => true

/-- The commands that write TURNS and LAST (10_state R28, R29). -/
def writesTurns : Instr → Bool
  | .raw => false
  | .upos => false
  | .spos => false
  | .mpos => true
  | .setz _ => false
  | .setzc => false
  | .getz => false
  | .setabs _ => true

/-- The statuses a decoded command may report (60_exceptions R242). ILLEGAL_COMMAND answers words that spell no command,
CONFIG_ERROR only a reset. -/
def mayReport (i : Instr) : Status → Bool
  | .ok => true
  | .decodeError => readsEncoder i
  | .busError => readsEncoder i
  | .illegalCommand => false
  | .turnOverflow => writesTurns i
  | .notReady => true
  | .configError => false

end Sys2Proof.Machine
end

