-- ==== Sys2Proof/Certificates/Slice0/Obligations.lean ====
section
/-! DEFINITION. The statements for the provers, from the numbered rules of spec/. -/

open Sys2Proof Sys2Proof.Machine

/-! Encoding (30_encoding). -/

/-- Decode and encode agree on every well-formed command (R71, R72, R73, R78). -/
def Obligations.DecodeEncodeRoundTrip : Prop :=
  ∀ i : Instr, i.wf = true → decode (encode i) = .ok i

/-- Each word spells at most one command: a word that decodes is the encoding of what it decodes to, whose operand is in
the range of its form (R71, R72). -/
def Obligations.DecodedWordIsItsEncoding : Prop :=
  ∀ (w : CommandWord) (i : Instr), decode w = .ok i → i.wf = true ∧ encode i = w

/-- The illegal words are exactly those of R74: a reserved OPC, or a must-be-zero operand bit set. -/
def Obligations.IllegalWordsExactly : Prop :=
  ∀ w : CommandWord,
    (∃ e, decode w = .error e) ↔
      (w.toNat / 2 ^ 32 = 0 ∨ 0x09 ≤ w.toNat / 2 ^ 32) ∨
      (w.toNat / 2 ^ 32 ≠ 0x05 ∧ w.toNat / 2 ^ 32 ≠ 0x08 ∧ w.toNat % 2 ^ 32 ≠ 0) ∨
      (w.toNat / 2 ^ 32 = 0x05 ∧ w.toNat % 2 ^ 32 / 2 ^ 8 ≠ 0)

/-- Words written out from the opcode map of R73 decode to their commands. -/
def Obligations.SampleWordsDecode : Prop :=
  decode 0x0100000000 = .ok .raw ∧ decode 0x0200000000 = .ok .upos ∧ decode 0x0300000000 = .ok .spos ∧
  decode 0x0400000000 = .ok .mpos ∧ decode 0x0500000085 = .ok (.setz 133) ∧ decode 0x0600000000 = .ok .setzc ∧
  decode 0x0700000000 = .ok .getz ∧ decode 0x08FFFFFFFF = .ok (.setabs (-1)) ∧
  decode 0x08000001F4 = .ok (.setabs 500)

/-- The 37-bit response word carries the status code of R241 in bits 36:33, WARN in bit 32 and DATA in bits 31:0
(R75). -/
def Obligations.ResponseWordLayout : Prop :=
  ∀ r : Response,
    r.word.toNat / 2 ^ 33 =
      (match r.status with
      | .ok => 0
      | .decodeError => 1
      | .busError => 2
      | .illegalCommand => 3
      | .turnOverflow => 4
      | .notReady => 5
      | .configError => 6) ∧
    r.word.toNat / 2 ^ 32 % 2 = (if r.warn then 1 else 0) ∧
    r.word.toNat % 2 ^ 32 = r.data.toNat

/-- A line of the assembly syntax with an immediate in range assembles to the word of its command, and no other line to
a word (R79, over lines already split into words). -/
def Obligations.AssembledWordDecodes : Prop :=
  ∀ (line : List Char) (w : CommandWord),
    assemble line = .word w ↔ ∃ i, asmInstr (asmWords line) = some i ∧ decode w = .ok i

/-! The step (30_encoding R78; 60_exceptions). -/

/-- A step runs the decoded command: the request leaves the command port, nothing else happens around exec (R78, R57). -/
def Obligations.StepRunsDecodedCommand : Prop :=
  ∀ (s : State) (w : CommandWord) (rest : List HostEvent) (i : Instr),
    s.host = .command w :: rest → decode w = .ok i → step s = exec i { s with host := rest }

/-- An illegal word at a READY block: ILLEGAL_COMMAND, DATA 0, and no bus read, no table read, no store request and no
state change (R74, R245). -/
def Obligations.IllegalWordChangesNothing : Prop :=
  ∀ (s : State) (w : CommandWord) (rest : List HostEvent) (e : Illegal),
    s.host = .command w :: rest → s.mode = .ready → decode w = .error e →
      step s = .next { s with host := rest, response := some { status := .illegalCommand, warn := false, data := 0 } }

/-- While MODE = FAILED every word, legal or not, answers NOT_READY with the FAIL_CAUSE code and does nothing else
(R243, R241). -/
def Obligations.FailedBlockAnswersNotReady : Prop :=
  ∀ (s : State) (w : CommandWord) (rest : List HostEvent),
    s.host = .command w :: rest → s.mode = .failed →
      step s = .next { s with
        host := rest
        response := some { status := .notReady, warn := false, data :=
          (match s.failCause with
          | .none => 0
          | .config => 1
          | .bus => 2
          | .decode => 3) } }

/-- With nothing asked the block does nothing (R260, R267; that such a step exists is the model's choice, log 9). -/
def Obligations.IdleBlockDoesNothing : Prop :=
  ∀ s : State, s.host = [] → step s = .next s

/-! The table builder (40_table_builder). -/

/-- The closed form of BUILD: pin `pin` of the pattern of `pos` reads the track 16 (PIN_ORDER[pin] - 1) positions ahead
(R102). -/
def Obligations.PatternReadsTrackAtPhase : Prop :=
  ∀ (track : Vector Byte 16) (order : Vector (BitVec 4) 8) (pos : Nat) (pin : Fin 8),
    legalPinOrder order = true → pos < 128 →
      (pattern track order pos).getLsbD pin.val =
        trackBit track ((pos + 16 * (order[pin].toNat - 1)) % 128)

/-- For a legal track and wiring TABLE holds each of 0..127 in exactly one entry and 255 in the other 128, and no entry
is written twice (R105). -/
def Obligations.TableHoldsEachPositionOnce : Prop :=
  ∀ (track : Vector Byte 16) (order : Vector (BitVec 4) 8),
    legalTrack track = true → legalPinOrder order = true →
      (∀ pos : Nat, pos < 128 → ∃! p : Byte, (build track order).read p.toNat = BitVec.ofNat 8 pos) ∧
      (∀ p : Byte, (build track order).read p.toNat = 255 ∨ ((build track order).read p.toNat).toNat < 128) ∧
      ((List.range 256).filter fun a => decide ((build track order).read a = 255)).length = 128 ∧
      ((List.range 128).map (pattern track order)).Nodup ∧
      (∀ pos : Nat, pos < 128 → (build track order).read (pattern track order pos).toNat = BitVec.ofNat 8 pos)

/-- All lines low and all lines high decode to no position, so a bus that reads all lines high gives DECODE_ERROR(0xFF)
(R110). -/
def Obligations.AllLowAndAllHighAreSentinels : Prop :=
  (∀ (track : Vector Byte 16) (order : Vector (BitVec 4) 8),
    legalTrack track = true → legalPinOrder order = true →
      (build track order).read 0x00 = 255 ∧ (build track order).read 0xFF = 255) ∧
  (∀ (s : State) (i : Instr), s.mode = .ready → s.Calibrated → s.nextBusRead = .byte 0xFF → readsEncoder i = true →
    exec i s = .next { s.afterBusRead with
      response := some { status := .decodeError, warn := false, data := 0xFF } })

/-- The legality test of R104 on the words w_r: each differs from its own nontrivial rotations, and none is a rotation
of another. -/
def Obligations.TrackLegalityByRotations : Prop :=
  ∀ track : Vector Byte 16,
    legalTrack track = true ↔
      (∀ r, r < 16 → ∀ k, 1 ≤ k → k < 8 → trackWord track r ≠ (trackWord track r).rotateLeft k) ∧
      (∀ r r', r < 16 → r' < 16 → r ≠ r' → ∀ k, k < 8 → trackWord track r ≠ (trackWord track r').rotateLeft k)

/-- The legality of a track does not depend on the wiring: under any legal PIN_ORDER the 128 patterns are pairwise
distinct exactly when the track is legal (R104). -/
def Obligations.TrackLegalityUnderAnyWiring : Prop :=
  ∀ (track : Vector Byte 16) (order : Vector (BitVec 4) 8), legalPinOrder order = true →
    (legalTrack track = true ↔ ((List.range 128).map (pattern track order)).Nodup)

/-! Position reads (41_position_reads). -/

/-- RAW answers the raw position, with one bus read and no other effect (R130). -/
def Obligations.RawReturnsRawPosition : Prop :=
  ∀ (s : State) (p : Byte) (raw : BitVec 7), s.mode = .ready → s.ReadsPosition p raw →
    exec .raw s = .next { s.afterBusRead with
      response := some { status := .ok, warn := false, data := raw.setWidth 32 } }

/-- UPOS answers the one value in 0..127 congruent to (raw - ZERO) * dir modulo 128, with one bus read and no other
effect (R131, R132, R133). -/
def Obligations.UposReturnsUnsignedPosition : Prop :=
  ∀ (s : State) (p : Byte) (raw : BitVec 7) (u : Nat), s.mode = .ready → s.ReadsPosition p raw →
    u ≤ 127 → ((u : Int) - s.rawOffset raw) % 128 = 0 →
    exec .upos s = .next { s.afterBusRead with
      response := some { status := .ok, warn := false, data := BitVec.ofNat 32 u } }

/-- SPOS answers the one value in -64..63 congruent to (raw - ZERO) * dir modulo 128, sign-extended, with one bus read and
no other effect (R134). -/
def Obligations.SposReturnsSignedPosition : Prop :=
  ∀ (s : State) (p : Byte) (raw : BitVec 7) (v : Int), s.mode = .ready → s.ReadsPosition p raw → s.IsSigned raw v →
    exec .spos s = .next { s.afterBusRead with
      response := some { status := .ok, warn := false, data := BitVec.ofInt 32 v } }

/-- A bus read that fails ends every command that reads the encoder with BUS_ERROR, DATA 0, and nothing else but the
request (R108, R109, R244). -/
def Obligations.BusFailureEndsTheCommand : Prop :=
  ∀ (s : State) (i : Instr), s.mode = .ready → readsEncoder i = true → s.nextBusRead = .fail →
    exec i s = .next { s.afterBusRead with response := some { status := .busError, warn := false, data := 0 } }

/-- A sentinel hit ends every command that reads the encoder with DECODE_ERROR, DATA the pattern, and nothing else but
the request (R76, R108, R109). -/
def Obligations.SentinelEndsTheCommand : Prop :=
  ∀ (s : State) (i : Instr) (p : Byte), s.mode = .ready → readsEncoder i = true →
    s.nextBusRead = .byte p → s.readTable p = 255 →
      exec i s = .next { s.afterBusRead with
        response := some { status := .decodeError, warn := false, data := p.setWidth 32 } }

/-- Positions stay in their ranges: RAW, UPOS and GETZ answer 0..127 and SPOS answers -64..63 whenever they answer OK, so
the sentinel never appears as a position (R76, R134; that an entry in 128..254, which BUILD never writes, reads as its low
7 bits is the model's choice, log 13). -/
def Obligations.PositionsStayInRange : Prop :=
  ∀ (s t : State) (r : Response), t.response = some r → r.status = .ok →
    ((exec .raw s = .next t ∨ exec .upos s = .next t ∨ exec .getz s = .next t) → r.data.toNat ≤ 127) ∧
    (exec .spos s = .next t → -64 ≤ r.data.toInt ∧ r.data.toInt ≤ 63)

/-- UPOS and SPOS of the same pattern agree: spos = sext7(upos) and upos = spos mod 128; with REVERSE = 1 and ZERO = 0,
raw 1 gives 127 and -1 (R136). -/
def Obligations.SignedAgreesWithUnsigned : Prop :=
  ∀ (s : State) (p : Byte) (raw : BitVec 7), s.mode = .ready → s.ReadsPosition p raw →
    ∃ u v : BitVec 32,
      exec .upos s = .next { s.afterBusRead with response := some { status := .ok, warn := false, data := u } } ∧
      exec .spos s = .next { s.afterBusRead with response := some { status := .ok, warn := false, data := v } } ∧
      v.toInt = (if u.toNat ≤ 63 then (u.toNat : Int) else (u.toNat : Int) - 128) ∧
      (u.toNat : Int) = v.toInt % 128 ∧
      (s.reverse = true → s.zero = 0 → raw = 1 → u.toNat = 127 ∧ v.toInt = -1)

/-- Adding or subtracting 128 once brings (raw - ZERO) * dir into -64..63, congruent to it modulo 128, and gives the
signed position (R135). -/
def Obligations.SingleCorrectionGivesSignedPosition : Prop :=
  ∀ (s : State) (raw : BitVec 7),
    -127 ≤ s.rawOffset raw ∧ s.rawOffset raw ≤ 127 ∧
    (if s.rawOffset raw > 63 then s.rawOffset raw - 128
      else if s.rawOffset raw < -64 then s.rawOffset raw + 128
      else s.rawOffset raw) = s.spos raw ∧
    s.IsSigned raw (s.spos raw)

/-! The multi-turn position (42_multiturn). -/

/-- MPOS with a difference of at most 64 counts no rollover: LAST takes s, TURNS and all else stays, no SAVE, and the
answer is TURNS + s (R160, R161, R163, R167). -/
def Obligations.MposWithoutRollover : Prop :=
  ∀ (s : State) (p : Byte) (raw : BitVec 7) (v : Int), s.mode = .ready → s.ReadsPosition p raw → s.IsSigned raw v →
    turnsMin ≤ s.turns → s.last.toInt - v ≤ 64 → v - s.last.toInt ≤ 64 →
    exec .mpos s = .next { s.afterBusRead with
      last := BitVec.ofInt 8 v
      response := some { status := .ok, warn := false, data := BitVec.ofInt 32 (s.turns + v) } }

/-- MPOS with a fall, or a rise, of more than 64 counts a forward, or backward, rollover: TURNS moves by +128, or -128,
LAST takes s, SAVE runs on the new record, and the answer is the new TURNS + s (R160, R161, R167). -/
def Obligations.MposCountsRollover : Prop :=
  ∀ (s : State) (p : Byte) (raw : BitVec 7) (v t1 : Int), s.mode = .ready → s.ReadsPosition p raw → s.IsSigned raw v →
    ((s.last.toInt - v > 64 ∧ t1 = s.turns + 128) ∨ (v - s.last.toInt > 64 ∧ t1 = s.turns - 128)) →
    turnsMin ≤ t1 → t1 ≤ turnsMax →
    ∃ (n : BitVec 25) (l : BitVec 8) (t : State) (w : Bool),
      128 * n.toInt = t1 ∧ l.toInt = v ∧
      State.Saves { s.afterBusRead with turnNumber := n, last := l } t w ∧
      exec .mpos s = .next { t with
        response := some { status := .ok, warn := w, data := BitVec.ofInt 32 (t1 + v) } }

/-- A rollover that would leave TURNS_MIN..TURNS_MAX ends MPOS with TURN_OVERFLOW and commits nothing (R164). -/
def Obligations.MposOverflowCommitsNothing : Prop :=
  ∀ (s : State) (p : Byte) (raw : BitVec 7) (v : Int), s.mode = .ready → s.ReadsPosition p raw → s.IsSigned raw v →
    ((s.last.toInt - v > 64 ∧ turnsMax < s.turns + 128) ∨ (v - s.last.toInt > 64 ∧ s.turns - 128 < turnsMin)) →
    exec .mpos s = .next { s.afterBusRead with
      response := some { status := .turnOverflow, warn := false, data := 0 } }

/-- After a successful MPOS the result is TURNS + LAST, it is congruent to the unsigned position modulo 128, TURNS is a
multiple of 128, and ZERO is unchanged (R165, R166). -/
def Obligations.MposResultIsTurnsPlusLast : Prop :=
  ∀ (s t : State) (r : Response) (p : Byte) (raw : BitVec 7), exec .mpos s = .next t → t.response = some r →
    r.status = .ok → s.ReadsPosition p raw →
    r.data.toInt = t.turns + t.last.toInt ∧
    r.data.toInt % 128 = s.rawOffset raw % 128 ∧
    t.turns % 128 = 0 ∧ t.zero = s.zero

/-- A successful MPOS that counted no rollover changes neither ZERO nor TURNS and asks the store nothing; one that did
asks the store to save the new record, unless none is configured (R221) or LAST_SAVED equals that record (R167). -/
def Obligations.MposSavesOnRolloverOnly : Prop :=
  ∀ (s t : State) (r : Response) (rec : Record), exec .mpos s = .next t → t.response = some r → r.status = .ok →
    (rec.zero.toNat = t.zero.toNat ∧ rec.turns.toInt = t.turns) →
    (t.turns = s.turns → t.zero = s.zero ∧ t.requests = s.requests ++ [.busRead s.busAddr]) ∧
    (t.turns ≠ s.turns →
      t.requests = s.requests ++ [.busRead s.busAddr] ++
        (if s.persistConfigured = true ∧ s.lastSaved ≠ some rec then [.storeSave rec] else []))

/-- From any LAST of 0 in the range, readings [60, -60] raise TURNS by exactly 128 and answer TURNS + 60 and then
TURNS + 68; readings [-60, 60] lower it by exactly 128 and answer TURNS - 60 and then TURNS - 68 (R168: the document's rollover property). -/
def Obligations.RolloverMovesTurnsBy128 : Prop :=
  ∀ (s : State) (p p' : Byte) (raw raw' : BitVec 7) (v : Int), s.mode = .ready → s.last = 0 →
    ((v = 60 ∧ turnsMin ≤ s.turns ∧ s.turns + 128 ≤ turnsMax) ∨
      (v = -60 ∧ turnsMin ≤ s.turns - 128 ∧ s.turns ≤ turnsMax)) →
    s.ReadsPosition p raw → s.IsSigned raw v →
    s.afterBusRead.ReadsPosition p' raw' → s.IsSigned raw' (-v) →
    ∃ (t t' : State) (r r' : Response),
      exec .mpos s = .next t ∧ t.response = some r ∧ r.status = .ok ∧ r.data.toInt = s.turns + v ∧ t.turns = s.turns ∧
      exec .mpos t = .next t' ∧ t'.response = some r' ∧ r'.status = .ok ∧
      (v = 60 → t'.turns = s.turns + 128 ∧ r'.data.toInt = s.turns + 68) ∧
      (v = -60 → t'.turns = s.turns - 128 ∧ r'.data.toInt = s.turns - 68)

/-- MPOS tracks the shaft: if LAST is the signed position of the raw position `prev` in the frame of the current ZERO, and
the shaft then moved by m positions with |m| <= 63, MPOS answers the previous multi-turn position plus m, and LAST is
again in the frame (R165, R290; the half-turn precondition is a premise, R162). -/
def Obligations.MposTracksShaftMotion : Prop :=
  ∀ (s : State) (p : Byte) (prev raw : BitVec 7) (m : Int), s.mode = .ready → s.IsSigned prev s.last.toInt →
    s.ReadsPosition p raw → -63 ≤ m → m ≤ 63 →
    ((raw.toNat : Int) - (prev.toNat + (if s.reverse then -m else m))) % 128 = 0 →
    turnsMin ≤ s.turns → s.turns ≤ turnsMax →
    -2147483584 ≤ s.turns + s.last.toInt + m → s.turns + s.last.toInt + m ≤ 2147483583 →
    ∃ (t : State) (r : Response), exec .mpos s = .next t ∧ t.response = some r ∧ r.status = .ok ∧
      r.data.toInt = s.turns + s.last.toInt + m ∧ t.turns + t.last.toInt = r.data.toInt ∧ t.IsSigned raw t.last.toInt

/-- The first MPOS after a reset counts no rollover and answers TURNS + s with the TURNS the reset gave (R283; LAST = 0
at reset is R281's). -/
def Obligations.FirstMposAfterResetCountsNoRollover : Prop :=
  ∀ (s : State) (inputs : ConfigInputs) (p : Byte) (raw : BitVec 7) (v : Int),
    (s.runReset inputs).mode = .ready → (s.runReset inputs).ReadsPosition p raw → (s.runReset inputs).IsSigned raw v →
    exec .mpos (s.runReset inputs) = .next { (s.runReset inputs).afterBusRead with
      last := BitVec.ofInt 8 v
      response := some { status := .ok, warn := false, data := BitVec.ofInt 32 ((s.runReset inputs).turns + v) } }

/-! Calibration (43_calibration). -/

/-- SETZ writes ZERO = raw mod 128, saves and answers 0: no bus access, TURNS and LAST unchanged (R180, R181). -/
def Obligations.SetzSetsZeroModulo128 : Prop :=
  ∀ (s : State) (value : Nat), s.mode = .ready →
    ∃ (z : BitVec 7) (t : State) (w : Bool), z.toNat = value % 128 ∧ State.Saves { s with zero := z } t w ∧
      exec (.setz value) s = .next { t with response := some { status := .ok, warn := w, data := 0 } }

/-- SETZC writes ZERO = the raw position just read, saves and answers 0: TURNS and LAST unchanged (R181, R182). -/
def Obligations.SetzcSetsZeroToReading : Prop :=
  ∀ (s : State) (p : Byte) (raw : BitVec 7), s.mode = .ready → s.ReadsPosition p raw →
    ∃ (t : State) (w : Bool), State.Saves { s.afterBusRead with zero := raw } t w ∧
      exec .setzc s = .next { t with response := some { status := .ok, warn := w, data := 0 } }

/-- GETZ answers ZERO, zero-extended, and does nothing else (R184). -/
def Obligations.GetzReturnsZero : Prop :=
  ∀ s : State, s.mode = .ready →
    exec .getz s = .next { s with
      response := some { status := .ok, warn := false, data := BitVec.ofNat 32 s.zero.toNat } }

/-- SETABS, for the targets it accepts, writes LAST = the value in -64..63 congruent to the target modulo 128, TURNS =
target - LAST, and ZERO congruent to raw - dir * target modulo 128, saves and answers 0 (R186, R187, R190). -/
def Obligations.SetabsRecalibrates : Prop :=
  ∀ (s : State) (p : Byte) (raw : BitVec 7) (target : Int), s.mode = .ready → s.ReadsPosition p raw →
    -2147483584 ≤ target → target ≤ 2147483583 →
    ∃ (z : BitVec 7) (l : BitVec 8) (n : BitVec 25) (t : State) (w : Bool),
      (-64 ≤ l.toInt ∧ l.toInt ≤ 63 ∧ (l.toInt - target) % 128 = 0) ∧
      128 * n.toInt = target - l.toInt ∧
      ((z.toNat : Int) - (raw.toNat - (if s.reverse then -target else target))) % 128 = 0 ∧
      State.Saves { s.afterBusRead with zero := z, last := l, turnNumber := n } t w ∧
      exec (.setabs target) s = .next { t with response := some { status := .ok, warn := w, data := 0 } }

/-- Outside -2^31+64 .. 2^31-65 SETABS answers TURN_OVERFLOW and commits nothing (R189). -/
def Obligations.SetabsOverflowCommitsNothing : Prop :=
  ∀ (s : State) (p : Byte) (raw : BitVec 7) (target : Int), s.mode = .ready → s.ReadsPosition p raw →
    (target < -2147483584 ∨ 2147483583 < target) →
    exec (.setabs target) s = .next { s.afterBusRead with
      response := some { status := .turnOverflow, warn := false, data := 0 } }

/-- A successful SETABS followed by an MPOS that reads a position m away, |m| <= 63, answers target + m, and with m = 0
(the same position) counts no rollover and changes no register; where target + m leaves the range the MPOS overflows
and commits nothing (R188, R189, R164). -/
def Obligations.SetabsThenMposReportsTarget : Prop :=
  ∀ (s t : State) (r : Response) (p p' : Byte) (raw raw' : BitVec 7) (target m : Int),
    s.ReadsPosition p raw → exec (.setabs target) s = .next t → t.response = some r → r.status = .ok →
    t.ReadsPosition p' raw' → -63 ≤ m → m ≤ 63 →
    ((raw'.toNat : Int) - (raw.toNat + (if s.reverse then -m else m))) % 128 = 0 →
    (-2147483584 ≤ target + m → target + m ≤ 2147483583 →
      ∃ (u : State) (q : Response), exec .mpos t = .next u ∧ u.response = some q ∧ q.status = .ok ∧
        q.data.toInt = target + m) ∧
    ((target + m < -2147483584 ∨ 2147483583 < target + m) →
      exec .mpos t = .next { t.afterBusRead with
        response := some { status := .turnOverflow, warn := false, data := 0 } }) ∧
    (m = 0 → exec .mpos t = .next { t.afterBusRead with
      response := some { status := .ok, warn := false, data := BitVec.ofInt 32 target } })

/-- After a successful SETZC, a later UPOS or SPOS under the same ZERO that reads the same pattern answers 0 (R183). -/
def Obligations.SetzcMakesThePatternZero : Prop :=
  ∀ (s t u : State) (r : Response) (p : Byte), exec .setzc s = .next t → t.response = some r → r.status = .ok →
    s.nextBusRead = .byte p → u.mode = .ready → u.zero = t.zero → u.table = t.table → u.nextBusRead = .byte p →
    exec .upos u = .next { u.afterBusRead with response := some { status := .ok, warn := false, data := 0 } } ∧
    exec .spos u = .next { u.afterBusRead with response := some { status := .ok, warn := false, data := 0 } }

/-- GETZ right after SETZ answers raw mod 128, and right after a successful SETZC the value read, whatever the store
answered (R185). -/
def Obligations.GetzAfterSetZeroReturnsIt : Prop :=
  ∀ (s t : State) (value : Nat) (p : Byte) (raw : BitVec 7), s.mode = .ready →
    (exec (.setz value) s = .next t →
      exec .getz t = .next { t with
        response := some { status := .ok, warn := false, data := BitVec.ofNat 32 (value % 128) } }) ∧
    (s.ReadsPosition p raw → exec .setzc s = .next t →
      exec .getz t = .next { t with
        response := some { status := .ok, warn := false, data := BitVec.ofNat 32 raw.toNat } })

/-! Persistence (44_persistence). -/

/-- With no store configured, no command and no reset asks the store anything or warns (R221). -/
def Obligations.UnconfiguredStoreIsNeverAsked : Prop :=
  (∀ (s t : State) (i : Instr), s.persistConfigured = false → exec i s = .next t →
    (∃ n : Nat, t.requests = s.requests ++ List.replicate n (.busRead s.busAddr)) ∧
    ∀ r, t.response = some r → r.warn = false) ∧
  (∀ (s : State) (inputs : ConfigInputs), inputs.persistConfigured = false →
    (∃ new : List Request, (s.runReset inputs).requests = s.requests ++ new ∧
      ∀ q ∈ new, q = .busRead s.busAddr ∨ q = .busWrite s.busAddr 0xFF) ∧
    (s.runReset inputs).lastSaved = none ∧
    ∀ r, (s.runReset inputs).response = some r → r.warn = false)

/-- A command changes LAST_SAVED only by a StoreSave of the registers' record that succeeds, which is then what the store
holds (R220, R225). -/
def Obligations.LastSavedChangesOnlyBySaving : Prop :=
  ∀ (s t : State) (i : Instr), exec i s = .next t → t.lastSaved ≠ s.lastSaved →
    t.lastSaved = some t.record ∧ t.storeCell = some t.record ∧ t.requests.getLast? = some (.storeSave t.record)

/-- After a save that failed LAST_SAVED keeps its value, the committed ZERO stays, and the same SETZ asks the store
again (R225, R227). -/
def Obligations.FailedSaveIsRetried : Prop :=
  ∀ (s t : State) (r : Response) (value : Nat), exec (.setz value) s = .next t → t.response = some r → r.warn = true →
    r.status = .ok ∧ t.zero = BitVec.ofNat 7 value ∧ t.lastSaved = s.lastSaved ∧
    ∃ t', exec (.setz value) t = .next t' ∧ t'.requests = t.requests ++ [.storeSave t.record]

/-- A second SETZ with the same operand after one that did not warn asks the store nothing (R224, R228). -/
def Obligations.RepeatedSaveWritesOnce : Prop :=
  ∀ (s t : State) (value : Nat), s.mode = .ready →
    exec (.setz value) s = .next t → t.response = some { status := .ok, warn := false, data := 0 } →
    exec (.setz value) t = .next t

/-- A calibration that a command has saved survives a reset: when the store serves the load and the bus write succeeds,
the reset restores ZERO and TURNS from the record, reads no bus, sets LAST to 0 and remembers the record as saved (R36,
R220, R226, R281). It rests on the store's round trip: that nothing but a StoreSave changes the store's cell is the
model's reading of R220, DEDUCED, log 5. -/
def Obligations.SavedCalibrationSurvivesReset : Prop :=
  ∀ (s t : State) (i : Instr) (inputs : ConfigInputs), s.mode = .ready → s.Calibrated →
    exec i s = .next t → t.lastSaved ≠ s.lastSaved →
    legalPinOrder inputs.pinOrder = true → inputs.persistConfigured = true →
    t.nextBusWrite = .ok → t.nextStoreLoad ≠ .fail →
    (t.runReset inputs).mode = .ready ∧ (t.runReset inputs).zero = t.zero ∧
    (t.runReset inputs).turns = t.turns ∧ (t.runReset inputs).last = 0 ∧
    (t.runReset inputs).lastSaved = some t.record ∧
    (t.runReset inputs).requests = t.requests ++ [.busWrite t.busAddr 0xFF, .storeLoad] ∧
    (t.runReset inputs).response = some { status := .ok, warn := false, data := 0 }

/-! Errors, frames and requests over all commands (60_exceptions; 20_memory; 10_state). -/

/-- A command that ends in any status but OK commits nothing, runs no SAVE and does not warn: at most its one bus read
happened (R244, R246). -/
def Obligations.ErrorsCommitNothing : Prop :=
  ∀ (s t : State) (i : Instr) (r : Response), exec i s = .next t → t.response = some r → r.status ≠ .ok →
    r.warn = false ∧ (t = { s with response := some r } ∨ t = { s.afterBusRead with response := some r })

/-- Each command reports only the statuses R242 gives it, and warns only if it may call SAVE. -/
def Obligations.CommandsReportTheirStatuses : Prop :=
  ∀ (s t : State) (i : Instr) (r : Response), exec i s = .next t → t.response = some r →
    mayReport i r.status = true ∧ (r.warn = true → maySave i = true)

/-- At a READY block each command makes its one bus read if it reads the encoder, at most one StoreSave and only if it
may save, and no other request (R52, R58). -/
def Obligations.RequestsOfEachCommand : Prop :=
  ∀ (s t : State) (i : Instr), s.mode = .ready → exec i s = .next t →
    ∃ saves : List Request,
      t.requests = s.requests ++ (if readsEncoder i then [.busRead s.busAddr] else []) ++ saves ∧
      (saves = [] ∨ (maySave i = true ∧ saves = [.storeSave t.record]))

/-- The frame of every command: the constants, the configuration, every TABLE entry, MODE, FAIL_CAUSE, the command port
and the agents it does not ask stay as they were; ZERO changes only by SETZ, SETZC and SETABS, and TURNS and LAST only
by MPOS and SETABS (R23, R24, R25, R26, R27, R28, R29, R181). -/
def Obligations.CommandFrame : Prop :=
  ∀ (s t : State) (i : Instr), exec i s = .next t →
    t.trackSpec = s.trackSpec ∧ t.busAddr = s.busAddr ∧ t.pinOrder = s.pinOrder ∧ t.reverse = s.reverse ∧
    t.persistConfigured = s.persistConfigured ∧ (∀ p : Byte, t.readTable p = s.readTable p) ∧ t.table = s.table ∧
    t.mode = s.mode ∧ t.failCause = s.failCause ∧ t.host = s.host ∧ t.busWrites = s.busWrites ∧
    t.storeLoads = s.storeLoads ∧
    (writesZero i = false → t.zero = s.zero) ∧
    (writesTurns i = false → t.turnNumber = s.turnNumber ∧ t.last = s.last) ∧
    (maySave i = false → t.lastSaved = s.lastSaved ∧ t.storeCell = s.storeCell ∧ t.storeSaves = s.storeSaves) ∧
    (readsEncoder i = false → t.busReads = s.busReads)

/-- Only a reset leaves FAILED, and only a reset changes TABLE or the configuration; no step changes TRACK_SPEC or
BUS_ADDR (R23, R26, R243, R280). -/
def Obligations.OnlyResetLeavesFailed : Prop :=
  ∀ s t : State, step s = .next t →
    t.trackSpec = s.trackSpec ∧ t.busAddr = s.busAddr ∧
    ((t.mode ≠ s.mode ∨ t.table ≠ s.table ∨ t.pinOrder ≠ s.pinOrder ∨ t.reverse ≠ s.reverse ∨
        t.persistConfigured ≠ s.persistConfigured) →
      ∃ inputs rest, s.host = .reset inputs :: rest)

/-! The reset sequence (70_reset_and_hazards). -/

/-- A malformed PIN_ORDER or TRACK_SPEC: CONFIG_ERROR, FAILED with cause CONFIG, no bus transaction, TABLE not built
(R103, R104, R281; that the other registers keep what they held is the model's choice, log 8). -/
def Obligations.ResetRefusesMalformedConfiguration : Prop :=
  ∀ (s : State) (inputs : ConfigInputs) (rest : List HostEvent), s.host = .reset inputs :: rest →
    (legalPinOrder inputs.pinOrder = false ∨ legalTrack s.trackSpec = false) →
    step s = .next { s with
      host := rest
      pinOrder := inputs.pinOrder
      reverse := inputs.reverse
      persistConfigured := inputs.persistConfigured
      lastSaved := none
      mode := .failed
      failCause := .config
      response := some { status := .configError, warn := false, data := 0 } }

/-- A reset bus write that fails: BUS_ERROR, FAILED with cause BUS, one bus write and no other request (R281; that the
calibration registers keep what they held is the model's choice, log 8). -/
def Obligations.ResetFailsOnBusWrite : Prop :=
  ∀ (s : State) (inputs : ConfigInputs) (rest : List HostEvent), s.host = .reset inputs :: rest →
    legalPinOrder inputs.pinOrder = true → legalTrack s.trackSpec = true → s.nextBusWrite = .fail →
    step s = .next { s with
      host := rest
      pinOrder := inputs.pinOrder
      reverse := inputs.reverse
      persistConfigured := inputs.persistConfigured
      table := build s.trackSpec inputs.pinOrder
      lastSaved := none
      mode := .failed
      failCause := .bus
      busWrites := s.busWrites.tail
      requests := s.requests ++ [.busWrite s.busAddr 0xFF]
      response := some { status := .busError, warn := false, data := 0 } }

/-- A reset that loads a valid record takes ZERO and TURNS from it, reads no bus, and is READY with LAST = 0 and
LAST_SAVED the record (R226, R281, R282). -/
def Obligations.ResetRestoresTheRecord : Prop :=
  ∀ (s : State) (inputs : ConfigInputs) (rest : List HostEvent) (rec : Record), s.host = .reset inputs :: rest →
    legalPinOrder inputs.pinOrder = true → legalTrack s.trackSpec = true → s.nextBusWrite = .ok →
    inputs.persistConfigured = true → s.nextStoreLoad = .found rec →
    rec.zero.toNat ≤ 127 → rec.turns.toInt % 128 = 0 → turnsMin ≤ rec.turns.toInt → rec.turns.toInt ≤ turnsMax →
    ∃ (z : BitVec 7) (n : BitVec 25), z.toNat = rec.zero.toNat ∧ 128 * n.toInt = rec.turns.toInt ∧
      step s = .next { s with
        host := rest
        pinOrder := inputs.pinOrder
        reverse := inputs.reverse
        persistConfigured := true
        table := build s.trackSpec inputs.pinOrder
        zero := z
        turnNumber := n
        last := 0
        lastSaved := some rec
        mode := .ready
        failCause := .none
        busWrites := s.busWrites.tail
        storeLoads := s.storeLoads.tail
        requests := s.requests ++ [.busWrite s.busAddr 0xFF, .storeLoad]
        response := some { status := .ok, warn := false, data := 0 } }

/-- A reset without a record to restore: none configured, none found, a load that failed, or a record the registers
cannot hold (the last two warn). It reads the bus once: a position becomes ZERO with TURNS = 0, READY; a bus failure or a
sentinel fails the reset with cause BUS or DECODE (R226, R281; 92 D17, D20, D21). That ZERO and TURNS then keep what they
held is the model's choice, log 8. -/
def Obligations.ResetDefaultsToTheReading : Prop :=
  ∀ (s : State) (inputs : ConfigInputs) (rest : List HostEvent) (w : Bool), s.host = .reset inputs :: rest →
    legalPinOrder inputs.pinOrder = true → legalTrack s.trackSpec = true → s.nextBusWrite = .ok →
    ((inputs.persistConfigured = false ∧ w = false) ∨
      (inputs.persistConfigured = true ∧ s.nextStoreLoad = .absent ∧ w = false) ∨
      (inputs.persistConfigured = true ∧ s.nextStoreLoad = .fail ∧ w = true) ∨
      (inputs.persistConfigured = true ∧ w = true ∧ ∃ rec, s.nextStoreLoad = .found rec ∧
        (127 < rec.zero.toNat ∨ rec.turns.toInt % 128 ≠ 0 ∨ rec.turns.toInt < turnsMin ∨
          turnsMax < rec.turns.toInt))) →
    ∃ t : State, step s = .next t ∧ t.host = rest ∧ t.pinOrder = inputs.pinOrder ∧ t.reverse = inputs.reverse ∧
      t.persistConfigured = inputs.persistConfigured ∧ t.table = build s.trackSpec inputs.pinOrder ∧
      t.lastSaved = none ∧ t.storeCell = s.storeCell ∧
      t.requests = s.requests ++ [.busWrite s.busAddr 0xFF] ++
        (if inputs.persistConfigured then [.storeLoad] else []) ++ [.busRead s.busAddr] ∧
      (s.nextBusRead = .fail →
        t.mode = .failed ∧ t.failCause = .bus ∧ t.response = some { status := .busError, warn := w, data := 0 }) ∧
      (∀ p, s.nextBusRead = .byte p → t.readTable p = 255 →
        t.mode = .failed ∧ t.failCause = .decode ∧ t.zero = s.zero ∧ t.turnNumber = s.turnNumber ∧
        t.response = some { status := .decodeError, warn := w, data := 0 }) ∧
      (∀ p raw, s.nextBusRead = .byte p → t.readTable p = BitVec.setWidth 8 (raw : BitVec 7) →
        t.mode = .ready ∧ t.failCause = .none ∧ t.zero = raw ∧ t.turns = 0 ∧ t.last = 0 ∧
        t.response = some { status := .ok, warn := w, data := 0 })

/-! The invariant. -/

/-- The invariant holds right after the power-on reset, whatever the OPEN parameters and the agents' draws (R32, R281;
that TABLE has its canonical form before the first BUILD is the model's choice, log 7 and log 12). -/
def Obligations.InvariantHoldsAtReset : Prop :=
  State.Inv State.reset

/-- Every step keeps the invariant (R33; R243). -/
def Obligations.EveryStepKeepsTheInvariant : Prop :=
  ∀ s t : State, s.Inv → step s = .next t → t.Inv

/-- A READY state that meets the invariant has the ranges of R33: TURNS a multiple of 128 in its range, LAST in -64..63,
TABLE with each of 0..127 exactly once and 255 elsewhere. -/
def Obligations.ReadyStatesMeetTheRanges : Prop :=
  ∀ s : State, s.Inv → s.mode = .ready →
    s.zero.toNat ≤ 127 ∧ s.turns % 128 = 0 ∧ turnsMin ≤ s.turns ∧ s.turns ≤ turnsMax ∧
    -64 ≤ s.last.toInt ∧ s.last.toInt ≤ 63 ∧
    (∀ pos : Nat, pos < 128 → ∃! p : Byte, s.readTable p = BitVec.ofNat 8 pos) ∧
    (∀ p : Byte, s.readTable p = 255 ∨ (s.readTable p).toNat < 128)

/-- The machine always goes on: no step ends in a fault or a refusal, and a request is always answered (R248, R296). -/
def Obligations.EveryRequestIsAnswered : Prop :=
  ∀ s : State, ∃ t : State, step s = .next t ∧ (s.host ≠ [] → ∃ r, t.response = some r)
end

