-- ==== Sys2Proof/Laws/Memory.lean ====
section
/-! SUPPORT. The laws of TABLE as memory: a read after a write, and the canonical form kept by every operation. -/

namespace Sys2Proof.Machine

theorem Memory.read_place_same (a : Nat) (v : Byte) (m : Memory) (h : Memory.read m a = Memory.blank) :
    (Memory.place a v m).read a = v := by
  unfold Memory.place
  split <;> simp_all [Memory.read]

theorem Memory.read_place_ne {a b : Nat} (v : Byte) (m : Memory) (h : b ≠ a) :
    (Memory.place a v m).read b = m.read b := by
  unfold Memory.place
  split <;> simp [Memory.read, h]

/-- Below the first address the canonical form lists nothing. -/
theorem Memory.read_of_lt_wfFrom {lo a : Nat} {m : Memory} (h : m.wfFrom lo = true) (ha : a < lo) :
    m.read a = Memory.blank := by
  induction m generalizing lo with
  | nil => rfl
  | cons c m ih =>
    obtain ⟨b, v⟩ := c
    simp only [Memory.wfFrom, Bool.and_eq_true, decide_eq_true_eq] at h
    have : a ≠ b := by omega
    simp only [Memory.read, this, if_false]
    exact ih h.2 (by omega)

theorem Memory.wfFrom_mono {lo lo' : Nat} {m : Memory} (h : m.wfFrom lo = true) (hl : lo' ≤ lo) :
    m.wfFrom lo' = true := by
  cases m with
  | nil => rfl
  | cons c m =>
    simp only [Memory.wfFrom, Bool.and_eq_true, decide_eq_true_eq] at h ⊢
    exact ⟨⟨⟨by omega, h.1.1.2⟩, h.1.2⟩, h.2⟩

/-- A byte just written reads back. -/
theorem Memory.read_write_same {lo : Nat} {m : Memory} (h : m.wfFrom lo = true) (a : Nat) (v : Byte) :
    (m.write a v).read a = v := by
  induction m generalizing lo with
  | nil => exact Memory.read_place_same a v [] rfl
  | cons c m ih =>
    obtain ⟨b, w⟩ := c
    have hm : Memory.wfFrom (b + 1) m = true := by
      simp only [Memory.wfFrom, Bool.and_eq_true] at h; exact h.2
    simp only [Memory.write]
    split
    · rename_i hlt
      refine Memory.read_place_same a v _ ?_
      simp only [Memory.read, Nat.ne_of_lt hlt, if_false]
      exact Memory.read_of_lt_wfFrom hm (Nat.lt_succ_of_lt hlt)
    · split
      · rename_i hab
        exact Memory.read_place_same a v _ (Memory.read_of_lt_wfFrom hm (hab ▸ Nat.lt_succ_self a))
      · rename_i hab
        simp only [Memory.read, hab, if_false]
        exact ih hm

/-- A write leaves every other address alone. -/
theorem Memory.read_write_ne {a b : Nat} (m : Memory) (v : Byte) (hb : b ≠ a) :
    (m.write a v).read b = m.read b := by
  induction m with
  | nil => exact Memory.read_place_ne v [] hb
  | cons c m ih =>
    obtain ⟨x, w⟩ := c
    simp only [Memory.write]
    split
    · exact Memory.read_place_ne v _ hb
    · split
      · rename_i hax
        rw [Memory.read_place_ne v _ hb]
        simp [Memory.read, hax ▸ hb]
      · simp only [Memory.read, ih]

theorem Memory.place_wfFrom {lo a : Nat} {v : Byte} {m : Memory} (hlo : lo ≤ a) (ha : a < 256)
    (h : m.wfFrom (a + 1) = true) : (Memory.place a v m).wfFrom lo = true := by
  unfold Memory.place
  split
  · exact Memory.wfFrom_mono h (by omega)
  · rename_i hv
    simp [Memory.wfFrom, hlo, ha, hv, h]

theorem Memory.write_wfFrom {lo a : Nat} {v : Byte} {m : Memory} (hlo : lo ≤ a) (ha : a < 256)
    (h : m.wfFrom lo = true) : (m.write a v).wfFrom lo = true := by
  induction m generalizing lo with
  | nil => exact Memory.place_wfFrom hlo ha rfl
  | cons c m ih =>
    obtain ⟨b, w⟩ := c
    have h' := h
    simp only [Memory.wfFrom, Bool.and_eq_true, decide_eq_true_eq] at h'
    simp only [Memory.write]
    split
    · refine Memory.place_wfFrom hlo ha ?_
      simp only [Memory.wfFrom, Bool.and_eq_true, decide_eq_true_eq]
      exact ⟨⟨⟨by omega, h'.1.1.2⟩, h'.1.2⟩, h'.2⟩
    · split
      · rename_i hab
        exact Memory.place_wfFrom hlo ha (Memory.wfFrom_mono h'.2 (by omega))
      · simp only [Memory.wfFrom, Bool.and_eq_true, decide_eq_true_eq]
        exact ⟨⟨⟨h'.1.1.1, h'.1.1.2⟩, h'.1.2⟩, ih (by omega) h'.2⟩

/-- A write to an address of the space keeps the canonical form. -/
theorem Memory.write_wf {m : Memory} (h : m.wf = true) (p v : Byte) : (m.write p.toNat v).wf = true :=
  Memory.write_wfFrom (Nat.zero_le _) p.isLt h

/-- BUILD leaves TABLE in the canonical form, for every track and every wiring. -/
theorem build_wf (track : Vector Byte 16) (order : Vector (BitVec 4) 8) : (build track order).wf = true := by
  unfold build
  suffices h : ∀ (l : List Nat) (m : Memory), m.wf = true →
      (l.foldl (fun table pos => table.write (pattern track order pos).toNat (BitVec.ofNat 8 pos)) m).wf = true from
    h _ _ rfl
  intro l
  induction l with
  | nil => exact fun m h => h
  | cons pos l ih => exact fun m h => ih _ (Memory.write_wf h _ _)

end Sys2Proof.Machine
end

