-- ==== Sys2Proof/Laws/Operands.lean ====
section
/-! SUPPORT. What the position arithmetic computes: ranges, residues modulo 128, and the TURNS register's two views. -/

namespace Sys2Proof.Machine

theorem dir_cases (reverse : Bool) : dir reverse = 1 ∨ dir reverse = -1 := by
  cases reverse <;> simp [dir]

/-- sext7 brings a value in 0..127 into -64..63 and keeps its residue modulo 128. -/
theorem sext7_spec {u : Nat} (h : u ≤ 127) : -64 ≤ sext7 u ∧ sext7 u ≤ 63 ∧ (sext7 u - u) % 128 = 0 := by
  unfold sext7; split <;> omega

/-- The unsigned position lies in 0..127 and is congruent to (raw - ZERO) * dir. -/
theorem uposOf_spec (reverse : Bool) (zero raw : BitVec 7) :
    uposOf reverse zero raw ≤ 127 ∧
    ((uposOf reverse zero raw : Int) - ((raw.toNat : Int) - zero.toNat) * dir reverse) % 128 = 0 := by
  unfold uposOf; omega

/-- The signed position lies in -64..63 and is congruent to (raw - ZERO) * dir. -/
theorem sposOf_spec (reverse : Bool) (zero raw : BitVec 7) :
    -64 ≤ sposOf reverse zero raw ∧ sposOf reverse zero raw ≤ 63 ∧
    (sposOf reverse zero raw - ((raw.toNat : Int) - zero.toNat) * dir reverse) % 128 = 0 := by
  have hu := uposOf_spec reverse zero raw
  have hs := sext7_spec hu.1
  unfold sposOf; omega

/-- The wraparound detector counts at most one rollover. -/
theorem rollover_cases (turns last s : Int) :
    (last - s > 64 ∧ rollover turns last s = turns + 128) ∨
    (s - last > 64 ∧ rollover turns last s = turns - 128) ∨
    (last - s ≤ 64 ∧ s - last ≤ 64 ∧ rollover turns last s = turns) := by
  unfold rollover; split
  · exact .inl ⟨by assumption, rfl⟩
  · split
    · exact .inr (.inl ⟨by assumption, rfl⟩)
    · exact .inr (.inr ⟨by omega, by omega, rfl⟩)

theorem turnsInRange_iff (t : Int) : turnsInRange t = true ↔ -2147483520 ≤ t ∧ t ≤ 2147483520 := by
  simp only [turnsInRange, Bool.and_eq_true, decide_eq_true_eq]
  exact Iff.rfl

/-- Every value of the TURNS register is a multiple of 128 that an i32 holds. -/
theorem turnsOf_spec (n : BitVec 25) :
    turnsOf n % 128 = 0 ∧ -2147483648 ≤ turnsOf n ∧ turnsOf n ≤ 2147483520 := by
  have h1 := BitVec.le_two_mul_toInt (x := n)
  have h2 := BitVec.two_mul_toInt_lt (x := n)
  unfold turnsOf; omega

/-- A multiple of 128 in the range of an i32 reads back from its turn number. -/
theorem turnsOf_turnNumberOf {t : Int} (h : t % 128 = 0) (hlo : -2147483648 ≤ t) (hhi : t ≤ 2147483520) :
    turnsOf (turnNumberOf t) = t := by
  unfold turnsOf turnNumberOf
  rw [BitVec.toInt_ofInt, Int.bmod_def]
  split <;> omega

theorem turnNumberOf_turnsOf (n : BitVec 25) : turnNumberOf (turnsOf n) = n := by
  have h : 128 * n.toInt / 128 = n.toInt := by omega
  unfold turnsOf turnNumberOf
  rw [h, BitVec.ofInt_toInt]

/-- The 32-bit register and the integer are two views of one turn number. -/
theorem turnsWord_toInt (n : BitVec 25) : (turnsWord n).toInt = turnsOf n := by
  have h : (turnsWord n).toNat = n.toNat * 128 := by
    unfold turnsWord
    rw [BitVec.toNat_append, Nat.shiftLeft_eq]
    simp
  unfold turnsOf
  rw [BitVec.toInt_eq_toNat_cond, BitVec.toInt_eq_toNat_cond, h]
  have := n.isLt
  split <;> split <;> omega

/-- A value in -128..127 reads back from an i8 register. -/
theorem toInt_ofInt8 {v : Int} (hlo : -128 ≤ v) (hhi : v ≤ 127) : (BitVec.ofInt 8 v).toInt = v := by
  rw [BitVec.toInt_ofInt, Int.bmod_def]
  split <;> omega

/-- A value in the range of an i32 reads back from DATA. -/
theorem toInt_ofInt32 {v : Int} (hlo : -2147483648 ≤ v) (hhi : v ≤ 2147483647) : (BitVec.ofInt 32 v).toInt = v := by
  rw [BitVec.toInt_ofInt, Int.bmod_def]
  split <;> omega

/-- What SETABS computes from its target: LAST in -64..63, TURNS a multiple of 128, their sum the target. -/
theorem abs_spec (target : Int) :
    -64 ≤ absLast target ∧ absLast target ≤ 63 ∧ absTurns target % 128 = 0 ∧
    absTurns target + absLast target = target := by
  have h : targetLow target ≤ 127 ∧ ((targetLow target : Int) - target) % 128 = 0 := by
    unfold targetLow; omega
  have hs := sext7_spec h.1
  unfold absTurns absLast; omega

/-- SETABS accepts exactly the targets in -2^31+64 .. 2^31-65. -/
theorem absTurns_inRange_iff (target : Int) :
    turnsInRange (absTurns target) = true ↔ -2147483584 ≤ target ∧ target ≤ 2147483583 := by
  have h := abs_spec target
  rw [turnsInRange_iff]; omega

/-- The new zero offset of SETABS: 0..127, congruent to raw - dir * target. -/
theorem absZero_spec (reverse : Bool) (raw : BitVec 7) (target : Int) :
    absZero reverse raw target ≤ 127 ∧
    ((absZero reverse raw target : Int) - (raw.toNat - dir reverse * target)) % 128 = 0 := by
  have h : ((targetLow target : Int) - target) % 128 = 0 := by unfold targetLow; omega
  unfold absZero
  rcases dir_cases reverse with hd | hd <;> rw [hd] <;> omega

end Sys2Proof.Machine
end

