-- ==== Sys2Proof/Laws/State.lean ====
section
/-! SUPPORT. One lemma per field per update of State, so that no later proof unfolds a record update. -/

namespace Sys2Proof.Machine

variable (s : State)


/-! ### raise -/

@[simp] theorem State.raise_trackSpec (e : Status) (d : Word32) : (s.raise e d).trackSpec = s.trackSpec := rfl
@[simp] theorem State.raise_busAddr (e : Status) (d : Word32) : (s.raise e d).busAddr = s.busAddr := rfl
@[simp] theorem State.raise_pinOrder (e : Status) (d : Word32) : (s.raise e d).pinOrder = s.pinOrder := rfl
@[simp] theorem State.raise_reverse (e : Status) (d : Word32) : (s.raise e d).reverse = s.reverse := rfl
@[simp] theorem State.raise_persistConfigured (e : Status) (d : Word32) : (s.raise e d).persistConfigured = s.persistConfigured := rfl
@[simp] theorem State.raise_table (e : Status) (d : Word32) : (s.raise e d).table = s.table := rfl
@[simp] theorem State.raise_zero (e : Status) (d : Word32) : (s.raise e d).zero = s.zero := rfl
@[simp] theorem State.raise_turnNumber (e : Status) (d : Word32) : (s.raise e d).turnNumber = s.turnNumber := rfl
@[simp] theorem State.raise_last (e : Status) (d : Word32) : (s.raise e d).last = s.last := rfl
@[simp] theorem State.raise_lastSaved (e : Status) (d : Word32) : (s.raise e d).lastSaved = s.lastSaved := rfl
@[simp] theorem State.raise_mode (e : Status) (d : Word32) : (s.raise e d).mode = s.mode := rfl
@[simp] theorem State.raise_failCause (e : Status) (d : Word32) : (s.raise e d).failCause = s.failCause := rfl
@[simp] theorem State.raise_response (e : Status) (d : Word32) :
    (s.raise e d).response = some { status := e, warn := false, data := d } := rfl
@[simp] theorem State.raise_storeCell (e : Status) (d : Word32) : (s.raise e d).storeCell = s.storeCell := rfl
@[simp] theorem State.raise_host (e : Status) (d : Word32) : (s.raise e d).host = s.host := rfl
@[simp] theorem State.raise_busReads (e : Status) (d : Word32) : (s.raise e d).busReads = s.busReads := rfl
@[simp] theorem State.raise_busWrites (e : Status) (d : Word32) : (s.raise e d).busWrites = s.busWrites := rfl
@[simp] theorem State.raise_storeLoads (e : Status) (d : Word32) : (s.raise e d).storeLoads = s.storeLoads := rfl
@[simp] theorem State.raise_storeSaves (e : Status) (d : Word32) : (s.raise e d).storeSaves = s.storeSaves := rfl
@[simp] theorem State.raise_requests (e : Status) (d : Word32) : (s.raise e d).requests = s.requests := rfl

/-! ### respond -/

@[simp] theorem State.respond_trackSpec (w : Bool) (d : Word32) : (s.respond w d).trackSpec = s.trackSpec := rfl
@[simp] theorem State.respond_busAddr (w : Bool) (d : Word32) : (s.respond w d).busAddr = s.busAddr := rfl
@[simp] theorem State.respond_pinOrder (w : Bool) (d : Word32) : (s.respond w d).pinOrder = s.pinOrder := rfl
@[simp] theorem State.respond_reverse (w : Bool) (d : Word32) : (s.respond w d).reverse = s.reverse := rfl
@[simp] theorem State.respond_persistConfigured (w : Bool) (d : Word32) : (s.respond w d).persistConfigured = s.persistConfigured := rfl
@[simp] theorem State.respond_table (w : Bool) (d : Word32) : (s.respond w d).table = s.table := rfl
@[simp] theorem State.respond_zero (w : Bool) (d : Word32) : (s.respond w d).zero = s.zero := rfl
@[simp] theorem State.respond_turnNumber (w : Bool) (d : Word32) : (s.respond w d).turnNumber = s.turnNumber := rfl
@[simp] theorem State.respond_last (w : Bool) (d : Word32) : (s.respond w d).last = s.last := rfl
@[simp] theorem State.respond_lastSaved (w : Bool) (d : Word32) : (s.respond w d).lastSaved = s.lastSaved := rfl
@[simp] theorem State.respond_mode (w : Bool) (d : Word32) : (s.respond w d).mode = s.mode := rfl
@[simp] theorem State.respond_failCause (w : Bool) (d : Word32) : (s.respond w d).failCause = s.failCause := rfl
@[simp] theorem State.respond_response (w : Bool) (d : Word32) :
    (s.respond w d).response = some { status := .ok, warn := w, data := d } := rfl
@[simp] theorem State.respond_storeCell (w : Bool) (d : Word32) : (s.respond w d).storeCell = s.storeCell := rfl
@[simp] theorem State.respond_host (w : Bool) (d : Word32) : (s.respond w d).host = s.host := rfl
@[simp] theorem State.respond_busReads (w : Bool) (d : Word32) : (s.respond w d).busReads = s.busReads := rfl
@[simp] theorem State.respond_busWrites (w : Bool) (d : Word32) : (s.respond w d).busWrites = s.busWrites := rfl
@[simp] theorem State.respond_storeLoads (w : Bool) (d : Word32) : (s.respond w d).storeLoads = s.storeLoads := rfl
@[simp] theorem State.respond_storeSaves (w : Bool) (d : Word32) : (s.respond w d).storeSaves = s.storeSaves := rfl
@[simp] theorem State.respond_requests (w : Bool) (d : Word32) : (s.respond w d).requests = s.requests := rfl

/-! ### afterBusRead -/

@[simp] theorem State.afterBusRead_trackSpec : s.afterBusRead.trackSpec = s.trackSpec := rfl
@[simp] theorem State.afterBusRead_busAddr : s.afterBusRead.busAddr = s.busAddr := rfl
@[simp] theorem State.afterBusRead_pinOrder : s.afterBusRead.pinOrder = s.pinOrder := rfl
@[simp] theorem State.afterBusRead_reverse : s.afterBusRead.reverse = s.reverse := rfl
@[simp] theorem State.afterBusRead_persistConfigured : s.afterBusRead.persistConfigured = s.persistConfigured := rfl
@[simp] theorem State.afterBusRead_table : s.afterBusRead.table = s.table := rfl
@[simp] theorem State.afterBusRead_zero : s.afterBusRead.zero = s.zero := rfl
@[simp] theorem State.afterBusRead_turnNumber : s.afterBusRead.turnNumber = s.turnNumber := rfl
@[simp] theorem State.afterBusRead_last : s.afterBusRead.last = s.last := rfl
@[simp] theorem State.afterBusRead_lastSaved : s.afterBusRead.lastSaved = s.lastSaved := rfl
@[simp] theorem State.afterBusRead_mode : s.afterBusRead.mode = s.mode := rfl
@[simp] theorem State.afterBusRead_failCause : s.afterBusRead.failCause = s.failCause := rfl
@[simp] theorem State.afterBusRead_response : s.afterBusRead.response = s.response := rfl
@[simp] theorem State.afterBusRead_storeCell : s.afterBusRead.storeCell = s.storeCell := rfl
@[simp] theorem State.afterBusRead_host : s.afterBusRead.host = s.host := rfl
@[simp] theorem State.afterBusRead_busReads : s.afterBusRead.busReads = s.busReads.tail := rfl
@[simp] theorem State.afterBusRead_busWrites : s.afterBusRead.busWrites = s.busWrites := rfl
@[simp] theorem State.afterBusRead_storeLoads : s.afterBusRead.storeLoads = s.storeLoads := rfl
@[simp] theorem State.afterBusRead_storeSaves : s.afterBusRead.storeSaves = s.storeSaves := rfl
@[simp] theorem State.afterBusRead_requests :
    s.afterBusRead.requests = s.requests ++ [.busRead s.busAddr] := rfl

/-! ### issue -/

/-- A bus read is the request of `afterBusRead`. -/
theorem State.issue_busRead : s.issue (.busRead s.busAddr) = s.afterBusRead := rfl

@[simp] theorem State.issue_trackSpec (q : Request) : (s.issue q).trackSpec = s.trackSpec := by cases q <;> rfl
@[simp] theorem State.issue_busAddr (q : Request) : (s.issue q).busAddr = s.busAddr := by cases q <;> rfl
@[simp] theorem State.issue_pinOrder (q : Request) : (s.issue q).pinOrder = s.pinOrder := by cases q <;> rfl
@[simp] theorem State.issue_reverse (q : Request) : (s.issue q).reverse = s.reverse := by cases q <;> rfl
@[simp] theorem State.issue_persistConfigured (q : Request) : (s.issue q).persistConfigured = s.persistConfigured := by cases q <;> rfl
@[simp] theorem State.issue_table (q : Request) : (s.issue q).table = s.table := by cases q <;> rfl
@[simp] theorem State.issue_zero (q : Request) : (s.issue q).zero = s.zero := by cases q <;> rfl
@[simp] theorem State.issue_turnNumber (q : Request) : (s.issue q).turnNumber = s.turnNumber := by cases q <;> rfl
@[simp] theorem State.issue_last (q : Request) : (s.issue q).last = s.last := by cases q <;> rfl
@[simp] theorem State.issue_lastSaved (q : Request) : (s.issue q).lastSaved = s.lastSaved := by cases q <;> rfl
@[simp] theorem State.issue_mode (q : Request) : (s.issue q).mode = s.mode := by cases q <;> rfl
@[simp] theorem State.issue_failCause (q : Request) : (s.issue q).failCause = s.failCause := by cases q <;> rfl
@[simp] theorem State.issue_response (q : Request) : (s.issue q).response = s.response := by cases q <;> rfl
@[simp] theorem State.issue_storeCell (q : Request) : (s.issue q).storeCell = s.storeCell := by cases q <;> rfl
@[simp] theorem State.issue_host (q : Request) : (s.issue q).host = s.host := by cases q <;> rfl
@[simp] theorem State.issue_requests (q : Request) : (s.issue q).requests = s.requests ++ [q] := by
  cases q <;> rfl

/-! ### save -/

@[simp] theorem State.save_trackSpec : s.save.trackSpec = s.trackSpec := by
  unfold State.save; split <;> [split <;> simp; rfl]
@[simp] theorem State.save_busAddr : s.save.busAddr = s.busAddr := by
  unfold State.save; split <;> [split <;> simp; rfl]
@[simp] theorem State.save_pinOrder : s.save.pinOrder = s.pinOrder := by
  unfold State.save; split <;> [split <;> simp; rfl]
@[simp] theorem State.save_reverse : s.save.reverse = s.reverse := by
  unfold State.save; split <;> [split <;> simp; rfl]
@[simp] theorem State.save_persistConfigured : s.save.persistConfigured = s.persistConfigured := by
  unfold State.save; split <;> [split <;> simp; rfl]
@[simp] theorem State.save_table : s.save.table = s.table := by
  unfold State.save; split <;> [split <;> simp; rfl]
@[simp] theorem State.save_zero : s.save.zero = s.zero := by
  unfold State.save; split <;> [split <;> simp; rfl]
@[simp] theorem State.save_turnNumber : s.save.turnNumber = s.turnNumber := by
  unfold State.save; split <;> [split <;> simp; rfl]
@[simp] theorem State.save_last : s.save.last = s.last := by
  unfold State.save; split <;> [split <;> simp; rfl]
@[simp] theorem State.save_mode : s.save.mode = s.mode := by
  unfold State.save; split <;> [split <;> simp; rfl]
@[simp] theorem State.save_failCause : s.save.failCause = s.failCause := by
  unfold State.save; split <;> [split <;> simp; rfl]
@[simp] theorem State.save_response : s.save.response = s.response := by
  unfold State.save; split <;> [split <;> simp; rfl]
@[simp] theorem State.save_host : s.save.host = s.host := by
  unfold State.save; split <;> [split <;> simp; rfl]
@[simp] theorem State.save_busReads : s.save.busReads = s.busReads := by
  unfold State.save; split <;> [split <;> rfl; rfl]
@[simp] theorem State.save_busWrites : s.save.busWrites = s.busWrites := by
  unfold State.save; split <;> [split <;> rfl; rfl]
@[simp] theorem State.save_storeLoads : s.save.storeLoads = s.storeLoads := by
  unfold State.save; split <;> [split <;> rfl; rfl]

/-! ### saveAndRespond -/

@[simp] theorem State.saveAndRespond_trackSpec (d : Word32) : (s.saveAndRespond d).trackSpec = s.trackSpec := by
  simp [State.saveAndRespond]
@[simp] theorem State.saveAndRespond_busAddr (d : Word32) : (s.saveAndRespond d).busAddr = s.busAddr := by
  simp [State.saveAndRespond]
@[simp] theorem State.saveAndRespond_pinOrder (d : Word32) : (s.saveAndRespond d).pinOrder = s.pinOrder := by
  simp [State.saveAndRespond]
@[simp] theorem State.saveAndRespond_reverse (d : Word32) : (s.saveAndRespond d).reverse = s.reverse := by
  simp [State.saveAndRespond]
@[simp] theorem State.saveAndRespond_persistConfigured (d : Word32) : (s.saveAndRespond d).persistConfigured = s.persistConfigured := by
  simp [State.saveAndRespond]
@[simp] theorem State.saveAndRespond_table (d : Word32) : (s.saveAndRespond d).table = s.table := by
  simp [State.saveAndRespond]
@[simp] theorem State.saveAndRespond_zero (d : Word32) : (s.saveAndRespond d).zero = s.zero := by
  simp [State.saveAndRespond]
@[simp] theorem State.saveAndRespond_turnNumber (d : Word32) : (s.saveAndRespond d).turnNumber = s.turnNumber := by
  simp [State.saveAndRespond]
@[simp] theorem State.saveAndRespond_last (d : Word32) : (s.saveAndRespond d).last = s.last := by
  simp [State.saveAndRespond]
@[simp] theorem State.saveAndRespond_lastSaved (d : Word32) : (s.saveAndRespond d).lastSaved = s.save.lastSaved := rfl
@[simp] theorem State.saveAndRespond_mode (d : Word32) : (s.saveAndRespond d).mode = s.mode := by
  simp [State.saveAndRespond]
@[simp] theorem State.saveAndRespond_failCause (d : Word32) : (s.saveAndRespond d).failCause = s.failCause := by
  simp [State.saveAndRespond]
@[simp] theorem State.saveAndRespond_response (d : Word32) :
    (s.saveAndRespond d).response = some { status := .ok, warn := s.saveWarns, data := d } := rfl
@[simp] theorem State.saveAndRespond_storeCell (d : Word32) : (s.saveAndRespond d).storeCell = s.save.storeCell := rfl
@[simp] theorem State.saveAndRespond_host (d : Word32) : (s.saveAndRespond d).host = s.host := by
  simp [State.saveAndRespond]
@[simp] theorem State.saveAndRespond_busReads (d : Word32) : (s.saveAndRespond d).busReads = s.busReads := by
  simp [State.saveAndRespond]
@[simp] theorem State.saveAndRespond_busWrites (d : Word32) : (s.saveAndRespond d).busWrites = s.busWrites := by
  simp [State.saveAndRespond]
@[simp] theorem State.saveAndRespond_storeLoads (d : Word32) : (s.saveAndRespond d).storeLoads = s.storeLoads := by
  simp [State.saveAndRespond]
@[simp] theorem State.saveAndRespond_storeSaves (d : Word32) : (s.saveAndRespond d).storeSaves = s.save.storeSaves := rfl
@[simp] theorem State.saveAndRespond_requests (d : Word32) : (s.saveAndRespond d).requests = s.save.requests := rfl

/-! ### What is computed from the fields -/

@[simp] theorem State.afterBusRead_turns : s.afterBusRead.turns = s.turns := rfl
@[simp] theorem State.afterBusRead_upos (raw : BitVec 7) : s.afterBusRead.upos raw = s.upos raw := rfl
@[simp] theorem State.afterBusRead_spos (raw : BitVec 7) : s.afterBusRead.spos raw = s.spos raw := rfl
@[simp] theorem State.afterBusRead_record : s.afterBusRead.record = s.record := rfl
@[simp] theorem State.afterBusRead_readTable (p : Byte) : s.afterBusRead.readTable p = s.readTable p := rfl
@[simp] theorem State.respond_record (w : Bool) (d : Word32) : (s.respond w d).record = s.record := rfl
@[simp] theorem State.respond_turns (w : Bool) (d : Word32) : (s.respond w d).turns = s.turns := rfl
@[simp] theorem State.raise_record (e : Status) (d : Word32) : (s.raise e d).record = s.record := rfl
@[simp] theorem State.raise_turns (e : Status) (d : Word32) : (s.raise e d).turns = s.turns := rfl
@[simp] theorem State.save_record : s.save.record = s.record := by simp [State.record]
@[simp] theorem State.save_turns : s.save.turns = s.turns := by simp [State.turns]
@[simp] theorem State.saveAndRespond_record (d : Word32) : (s.saveAndRespond d).record = s.record := by
  simp [State.record]
@[simp] theorem State.saveAndRespond_turns (d : Word32) : (s.saveAndRespond d).turns = s.turns := by
  simp [State.turns]

end Sys2Proof.Machine
end

