-- ==== Sys2Proof/Laws/Boot.lean ====
section
/-! SUPPORT. What the reset sequence can leave. -/

namespace Sys2Proof.Machine

/-- LOAD returns only records the registers can hold. -/
theorem loadedRecord_valid {persist : Bool} {reply : LoadReply} {rec : Record}
    (h : loadedRecord persist reply = some rec) :
    persist = true ∧ reply = .found rec ∧ validRecord rec = true := by
  unfold loadedRecord at h
  split at h
  · split at h
    · split at h
      · cases h; exact ⟨by assumption, rfl, by assumption⟩
      · cases h
    · cases h
    · cases h
  · cases h

/-- What `validRecord` says of a record. -/
theorem validRecord_iff (rec : Record) :
    validRecord rec = true ↔ rec.zero.toNat ≤ 127 ∧ rec.turns.toInt % 128 = 0 ∧
      -2147483520 ≤ rec.turns.toInt ∧ rec.turns.toInt ≤ 2147483520 := by
  simp [validRecord, turnsInRange_iff, and_assoc]

/-- What step 5 without a record leaves: READY on a position, FAILED otherwise. -/
theorem bootDefault_cases (busAddr : Nat) (read : BusReply) (r : Registers) (w : Bool) (qs : List Request) :
    (read = .fail ∧ bootDefault busAddr read r w qs = bootFail r .bus .busError w (qs ++ [.busRead busAddr])) ∨
    (∃ p, read = .byte p ∧ lookupRaw r.table p = none ∧
      bootDefault busAddr read r w qs = bootFail r .decode .decodeError w (qs ++ [.busRead busAddr])) ∨
    (∃ p raw, read = .byte p ∧ lookupRaw r.table p = some raw ∧
      bootDefault busAddr read r w qs = bootReady r raw 0 w (qs ++ [.busRead busAddr])) := by
  unfold bootDefault
  cases read with
  | fail => exact .inl ⟨rfl, rfl⟩
  | byte p =>
    right
    cases h : lookupRaw r.table p with
    | none => exact .inl ⟨p, rfl, h, by simp only [h]⟩
    | some raw => exact .inr ⟨p, raw, rfl, h, by simp only [h]⟩

/-- The registers after validation and BUILD: LAST_SAVED none, TABLE built. -/
def Registers.built (r : Registers) (track : Vector Byte 16) (inputs : ConfigInputs) : Registers :=
  { r with lastSaved := none, table := build track inputs.pinOrder }

/-- The four ways the reset sequence ends: a malformed configuration, a failed bus write, a restored record, or the
default reading. -/
theorem boot_cases (track : Vector Byte 16) (busAddr : Nat) (inputs : ConfigInputs) (a : BootAnswers) (r : Registers) :
    ((legalPinOrder inputs.pinOrder && legalTrack track) = false ∧
      boot track busAddr inputs a r = bootFail { r with lastSaved := none } .config .configError false []) ∨
    (legalPinOrder inputs.pinOrder = true ∧ legalTrack track = true ∧
      ((a.write = .fail ∧
        boot track busAddr inputs a r =
          bootFail (r.built track inputs) .bus .busError false [.busWrite busAddr busConfigureByte]) ∨
      (a.write = .ok ∧ ∃ rec, loadedRecord inputs.persistConfigured a.load = some rec ∧
        boot track busAddr inputs a r =
          bootReady { r.built track inputs with lastSaved := some rec } (rec.zero.setWidth 7)
            (turnNumberOf rec.turns.toInt) (loadWarns inputs.persistConfigured a.load)
            ([.busWrite busAddr busConfigureByte] ++
              (if inputs.persistConfigured then [.storeLoad] else []))) ∨
      (a.write = .ok ∧ loadedRecord inputs.persistConfigured a.load = none ∧
        boot track busAddr inputs a r =
          bootDefault busAddr a.read (r.built track inputs) (loadWarns inputs.persistConfigured a.load)
            ([.busWrite busAddr busConfigureByte] ++
              (if inputs.persistConfigured then [.storeLoad] else []))))) := by
  unfold boot
  cases h : legalPinOrder inputs.pinOrder && legalTrack track with
  | false => exact .inl ⟨rfl, rfl⟩
  | true =>
    right
    simp only [Bool.and_eq_true] at h
    refine ⟨h.1, h.2, ?_⟩
    cases hw : a.write with
    | fail => exact .inl ⟨rfl, rfl⟩
    | ok =>
      right
      cases hl : loadedRecord inputs.persistConfigured a.load with
      | some rec => exact .inl ⟨rfl, rec, rfl, by simp [bootCalibrate, hl, Registers.built]⟩
      | none => exact .inr ⟨rfl, rfl, by simp [bootCalibrate, hl, Registers.built]⟩

/-- A reset that ends READY has registers the block can hold, whatever it began with. -/
theorem boot_ready {track : Vector Byte 16} {busAddr : Nat} {inputs : ConfigInputs} {a : BootAnswers} {r : Registers}
    (h : (boot track busAddr inputs a r).registers.mode = .ready) :
    legalPinOrder inputs.pinOrder = true ∧ legalTrack track = true ∧
    (boot track busAddr inputs a r).registers.table = build track inputs.pinOrder ∧
    (boot track busAddr inputs a r).registers.last = 0 ∧
    (boot track busAddr inputs a r).registers.failCause = .none ∧
    turnsInRange (turnsOf (boot track busAddr inputs a r).registers.turnNumber) = true ∧
    (∀ rec, (boot track busAddr inputs a r).registers.lastSaved = some rec → validRecord rec = true) := by
  rcases boot_cases track busAddr inputs a r with ⟨_, hb⟩ | ⟨hp, ht, ⟨_, hb⟩ | ⟨_, rec, hl, hb⟩ | ⟨_, _, hb⟩⟩
  · rw [hb] at h; cases h
  · rw [hb] at h; cases h
  · rw [hb]
    have hv := (loadedRecord_valid hl).2.2
    simp only [bootReady, Registers.built]
    refine ⟨hp, ht, trivial, trivial, trivial, ?_, ?_⟩
    · obtain ⟨_, h128, hlo, hhi⟩ := (validRecord_iff rec).mp hv
      have := turnsOf_turnNumberOf h128 (by omega) hhi
      rw [this]
      exact (turnsInRange_iff _).mpr ⟨hlo, hhi⟩
    · intro rec' h'; cases h'; exact hv
  · rcases bootDefault_cases busAddr a.read (r.built track inputs) (loadWarns inputs.persistConfigured a.load)
        ([.busWrite busAddr busConfigureByte] ++ (if inputs.persistConfigured then [.storeLoad] else []))
      with ⟨_, hd⟩ | ⟨p, _, _, hd⟩ | ⟨p, raw, _, _, hd⟩
    · rw [hb, hd] at h; cases h
    · rw [hb, hd] at h; cases h
    · rw [hb, hd]
      simp only [bootReady, Registers.built]
      exact ⟨hp, ht, trivial, trivial, trivial, by decide, fun rec h' => by cases h'⟩

/-- The tables a reset can leave: the one before it where the configuration is malformed, and BUILD's otherwise. -/
theorem boot_table (track : Vector Byte 16) (busAddr : Nat) (inputs : ConfigInputs) (a : BootAnswers) (r : Registers) :
    (boot track busAddr inputs a r).registers.table =
      if legalPinOrder inputs.pinOrder && legalTrack track then build track inputs.pinOrder else r.table := by
  rcases boot_cases track busAddr inputs a r with ⟨h, hb⟩ | ⟨hp, ht, h⟩
  · rw [hb, h]; rfl
  · simp only [hp, ht, Bool.and_self, if_true]
    rcases h with ⟨_, hb⟩ | ⟨_, rec, _, hb⟩ | ⟨_, _, hb⟩
    · rw [hb]; rfl
    · rw [hb]; rfl
    · rcases bootDefault_cases busAddr a.read (r.built track inputs) (loadWarns inputs.persistConfigured a.load)
          ([.busWrite busAddr busConfigureByte] ++ (if inputs.persistConfigured then [.storeLoad] else []))
        with ⟨_, hd⟩ | ⟨p, _, _, hd⟩ | ⟨p, raw, _, _, hd⟩
      · rw [hb, hd]; rfl
      · rw [hb, hd]; rfl
      · rw [hb, hd]; rfl

/-- A reset keeps TABLE in its canonical form. -/
theorem boot_table_wf (track : Vector Byte 16) (busAddr : Nat) (inputs : ConfigInputs) (a : BootAnswers) (r : Registers)
    (h : Memory.wf r.table = true) : Memory.wf (boot track busAddr inputs a r).registers.table = true := by
  rw [boot_table]
  split
  · exact build_wf track inputs.pinOrder
  · exact h

/-- A reset that fails names its cause. -/
theorem boot_failed {track : Vector Byte 16} {busAddr : Nat} {inputs : ConfigInputs} {a : BootAnswers} {r : Registers}
    (h : (boot track busAddr inputs a r).registers.mode = .failed) :
    (boot track busAddr inputs a r).registers.failCause ≠ .none := by
  rcases boot_cases track busAddr inputs a r with ⟨_, hb⟩ | ⟨_, _, ⟨_, hb⟩ | ⟨_, rec, _, hb⟩ | ⟨_, _, hb⟩⟩
  · rw [hb]; exact FailCause.noConfusion
  · rw [hb]; exact FailCause.noConfusion
  · rw [hb] at h; cases h
  · rcases bootDefault_cases busAddr a.read (r.built track inputs) (loadWarns inputs.persistConfigured a.load)
        ([.busWrite busAddr busConfigureByte] ++ (if inputs.persistConfigured then [.storeLoad] else []))
      with ⟨_, hd⟩ | ⟨p, _, _, hd⟩ | ⟨p, raw, _, _, hd⟩
    · rw [hb, hd]; exact FailCause.noConfusion
    · rw [hb, hd]; exact FailCause.noConfusion
    · rw [hb, hd] at h; cases h

/-! ### The fields a reset leaves -/

/-- Making requests changes only the agents' coming answers and the record of requests. -/
theorem State.foldl_issue (s : State) (qs : List Request) :
    (qs.foldl State.issue s).trackSpec = s.trackSpec ∧ (qs.foldl State.issue s).busAddr = s.busAddr ∧
    (qs.foldl State.issue s).storeCell = s.storeCell ∧ (qs.foldl State.issue s).host = s.host ∧
    (qs.foldl State.issue s).requests = s.requests ++ qs := by
  induction qs generalizing s with
  | nil => simp
  | cons q qs ih => simp [ih]

variable (s : State) (inputs : ConfigInputs)

@[simp] theorem State.runReset_pinOrder : (s.runReset inputs).pinOrder = inputs.pinOrder := rfl
@[simp] theorem State.runReset_reverse : (s.runReset inputs).reverse = inputs.reverse := rfl
@[simp] theorem State.runReset_persistConfigured : (s.runReset inputs).persistConfigured = inputs.persistConfigured := rfl
@[simp] theorem State.runReset_table :
    (s.runReset inputs).table = (s.bootResult inputs).registers.table := rfl
@[simp] theorem State.runReset_zero :
    (s.runReset inputs).zero = (s.bootResult inputs).registers.zero := rfl
@[simp] theorem State.runReset_turnNumber :
    (s.runReset inputs).turnNumber = (s.bootResult inputs).registers.turnNumber := rfl
@[simp] theorem State.runReset_last :
    (s.runReset inputs).last = (s.bootResult inputs).registers.last := rfl
@[simp] theorem State.runReset_lastSaved :
    (s.runReset inputs).lastSaved = (s.bootResult inputs).registers.lastSaved := rfl
@[simp] theorem State.runReset_mode :
    (s.runReset inputs).mode = (s.bootResult inputs).registers.mode := rfl
@[simp] theorem State.runReset_failCause :
    (s.runReset inputs).failCause = (s.bootResult inputs).registers.failCause := rfl
@[simp] theorem State.runReset_response :
    (s.runReset inputs).response = some (s.bootResult inputs).response := rfl
@[simp] theorem State.runReset_trackSpec : (s.runReset inputs).trackSpec = s.trackSpec := (State.foldl_issue s _).1
@[simp] theorem State.runReset_busAddr : (s.runReset inputs).busAddr = s.busAddr := (State.foldl_issue s _).2.1
@[simp] theorem State.runReset_storeCell : (s.runReset inputs).storeCell = s.storeCell := (State.foldl_issue s _).2.2.1
@[simp] theorem State.runReset_host : (s.runReset inputs).host = s.host := (State.foldl_issue s _).2.2.2.1
@[simp] theorem State.runReset_requests :
    (s.runReset inputs).requests = s.requests ++ (s.bootResult inputs).requests := (State.foldl_issue s _).2.2.2.2

/-- The power-on reset is the reset sequence run on a machine whose agents have no scripted answers. -/
def State.powerOn : State :=
  { trackSpec := Config.trackSpec
    busAddr := Config.busAddr
    pinOrder := Config.inputs.pinOrder
    reverse := Config.inputs.reverse
    persistConfigured := Config.inputs.persistConfigured
    table := Registers.powerOn.table
    zero := Registers.powerOn.zero
    turnNumber := Registers.powerOn.turnNumber
    last := Registers.powerOn.last
    lastSaved := Registers.powerOn.lastSaved
    mode := Registers.powerOn.mode
    failCause := Registers.powerOn.failCause
    response := none
    storeCell := Config.storeCell
    host := []
    busReads := []
    busWrites := []
    storeLoads := []
    storeSaves := []
    requests := [] }

theorem State.powerOn_bootResult : State.powerOn.bootResult Config.inputs = State.powerOnBoot := rfl

end Sys2Proof.Machine
end

