-- ==== Sys2Proof/Laws/Ops.lean ====
section
/-! SUPPORT. What each shared operation can do, said once. -/

namespace Sys2Proof.Machine

/-! ### Ending a command -/

theorem State.command_ready {s : State} (h : s.mode = .ready) (body : State → State) :
    s.command body = .next (body s) := by
  simp [State.command, h]

theorem State.command_failed {s : State} (h : s.mode = .failed) (body : State → State) :
    s.command body = .next (s.raise .notReady (s.failCause.code.setWidth 32)) := by
  simp [State.command, h]

/-- A command answers NOT_READY on a FAILED block and runs its body on a READY one. -/
theorem State.command_cases {s t : State} {body : State → State} (h : s.command body = .next t) :
    (s.mode = .failed ∧ t = s.raise .notReady (s.failCause.code.setWidth 32)) ∨ (s.mode = .ready ∧ t = body s) := by
  cases hm : s.mode with
  | failed => rw [State.command_failed hm] at h; cases h; exact .inl ⟨rfl, rfl⟩
  | ready => rw [State.command_ready hm] at h; cases h; exact .inr ⟨rfl, rfl⟩

/-! ### readRaw -/

theorem lookupRaw_eq_none_iff (table : Memory) (p : Byte) : lookupRaw table p = none ↔ table.read p.toNat = 255 := by
  unfold lookupRaw
  split
  · exact iff_of_true rfl (by assumption)
  · exact iff_of_false (by simp) (by assumption)

theorem lookupRaw_eq_some_of {table : Memory} {p : Byte} {raw : BitVec 7}
    (h : table.read p.toNat = raw.setWidth 8) : lookupRaw table p = some raw := by
  have h255 : raw.setWidth 8 ≠ 255#8 := by
    intro h'
    have := congrArg BitVec.toNat h'
    have hlt := raw.isLt
    simp only [BitVec.toNat_setWidth] at this
    simp at this
    omega
  have hraw : (raw.setWidth 8).setWidth 7 = raw := by
    apply BitVec.eq_of_toNat_eq
    have hlt := raw.isLt
    simp only [BitVec.toNat_setWidth]
    omega
  simp [lookupRaw, sentinel, h, h255, hraw]

theorem State.reading_of_fail {s : State} (h : s.nextBusRead = .fail) : s.reading = .busError := by
  simp [State.reading, h]

theorem State.reading_of_sentinel {s : State} {p : Byte} (hp : s.nextBusRead = .byte p) (h : s.readTable p = 255) :
    s.reading = .sentinel p := by
  have hl : lookupRaw s.table p = none := (lookupRaw_eq_none_iff _ _).mpr h
  simp [State.reading, hp, hl]

theorem State.reading_of_position {s : State} {p : Byte} {raw : BitVec 7} (h : s.ReadsPosition p raw) :
    s.reading = .position p raw := by
  have hl : lookupRaw s.table p = some raw := lookupRaw_eq_some_of h.2
  simp [State.reading, h.1, hl]

/-- `readRaw` makes one bus read in every case; an error ends the command there. -/
theorem State.withRaw_cases (s : State) (rest : BitVec 7 → State → State) :
    (s.nextBusRead = .fail ∧ s.withRaw rest = s.afterBusRead.raise .busError 0) ∨
    (∃ p, s.nextBusRead = .byte p ∧ lookupRaw s.table p = none ∧
      s.withRaw rest = s.afterBusRead.raise .decodeError (p.setWidth 32)) ∨
    (∃ p raw, s.nextBusRead = .byte p ∧ lookupRaw s.table p = some raw ∧
      s.withRaw rest = rest raw s.afterBusRead) := by
  unfold State.withRaw State.reading
  rw [State.issue_busRead]
  cases h : s.nextBusRead with
  | fail => exact .inl ⟨rfl, rfl⟩
  | byte p =>
    right
    cases hl : lookupRaw s.table p with
    | none => exact .inl ⟨p, rfl, hl, by simp only [hl]⟩
    | some raw => exact .inr ⟨p, raw, rfl, hl, by simp only [hl]⟩

theorem State.withRaw_of_position {s : State} {p : Byte} {raw : BitVec 7} (h : s.ReadsPosition p raw)
    (rest : BitVec 7 → State → State) : s.withRaw rest = rest raw s.afterBusRead := by
  simp [State.withRaw, State.reading_of_position h, State.issue_busRead]

theorem State.withRaw_of_sentinel {s : State} {p : Byte} (hp : s.nextBusRead = .byte p) (h : s.readTable p = 255)
    (rest : BitVec 7 → State → State) : s.withRaw rest = s.afterBusRead.raise .decodeError (p.setWidth 32) := by
  simp [State.withRaw, State.reading_of_sentinel hp h, State.issue_busRead]

theorem State.withRaw_of_fail {s : State} (h : s.nextBusRead = .fail) (rest : BitVec 7 → State → State) :
    s.withRaw rest = s.afterBusRead.raise .busError 0 := by
  simp [State.withRaw, State.reading_of_fail h, State.issue_busRead]

/-! ### SAVE -/

/-- SAVE asks the store at most once, and only for a record that differs from LAST_SAVED. -/
theorem State.save_cases (s : State) : State.Saves s s.save s.saveWarns := by
  unfold State.Saves
  cases hn : s.saveNeeded with
  | false =>
    left
    have h' := hn
    simp only [State.saveNeeded, Bool.and_eq_false_iff, decide_eq_false_iff_not, not_not] at h'
    exact ⟨h', by simp [State.save, hn], by simp [State.saveWarns, hn]⟩
  | true =>
    right
    have h' := hn
    simp only [State.saveNeeded, Bool.and_eq_true, decide_eq_true_eq] at h'
    cases hr : s.nextStoreSave with
    | ok => exact .inl ⟨h'.1, h'.2, rfl, by simp [State.saveWarns, hr], by simp [State.save, hn, hr, State.issue]⟩
    | fail left =>
      exact .inr ⟨h'.1, h'.2, by simp [State.saveWarns, hn, hr], left, rfl, by simp [State.save, hn, hr, State.issue]⟩

/-! ### The register updates of MPOS and SETABS -/

/-- MPOS after its reading: an overflow, a rollover that saves, or no rollover. -/
theorem State.accumulate_cases (s : State) (p t1 : Int) :
    (turnsInRange t1 = false ∧ s.accumulate p t1 = s.raise .turnOverflow 0) ∨
    (turnsInRange t1 = true ∧ t1 ≠ s.turns ∧
      s.accumulate p t1 =
        State.saveAndRespond { s with turnNumber := turnNumberOf t1, last := BitVec.ofInt 8 p }
          (BitVec.ofInt 32 (t1 + p))) ∨
    (turnsInRange t1 = true ∧ t1 = s.turns ∧
      s.accumulate p t1 = State.respond { s with last := BitVec.ofInt 8 p } false (BitVec.ofInt 32 (t1 + p))) := by
  unfold State.accumulate
  cases h : turnsInRange t1 with
  | false => exact .inl ⟨rfl, by simp⟩
  | true =>
    right
    by_cases ht : t1 = s.turns
    · refine .inr ⟨rfl, ht, ?_⟩
      subst ht
      simp [State.turns, turnNumberOf_turnsOf]
    · exact .inl ⟨rfl, ht, by simp [ht]⟩

/-- SETABS after its reading: an overflow, or the three registers committed and saved. -/
theorem State.recalibrate_cases (s : State) (target : Int) (raw : BitVec 7) :
    (turnsInRange (absTurns target) = false ∧ s.recalibrate target raw = s.raise .turnOverflow 0) ∨
    (turnsInRange (absTurns target) = true ∧
      s.recalibrate target raw =
        State.saveAndRespond
          { s with
            zero := BitVec.ofNat 7 (absZero s.reverse raw target)
            last := BitVec.ofInt 8 (absLast target)
            turnNumber := turnNumberOf (absTurns target) } 0) := by
  unfold State.recalibrate
  cases turnsInRange (absTurns target) with
  | false => exact .inl ⟨rfl, rfl⟩
  | true => exact .inr ⟨rfl, rfl⟩

end Sys2Proof.Machine
end

