-- ==== Sys2Proof/Laws/Exec.lean ====
section
/-! SUPPORT. Each command's meaning as its shared operations, what a successful command went through, and the step. -/

namespace Sys2Proof.Machine

variable (s : State)

theorem exec_raw : exec .raw s = s.command fun s => s.withRaw fun raw s => s.respond false (raw.setWidth 32) := rfl

theorem exec_upos :
    exec .upos s = s.command fun s => s.withRaw fun raw s => s.respond false (BitVec.ofNat 32 (s.upos raw)) := rfl

theorem exec_spos :
    exec .spos s = s.command fun s => s.withRaw fun raw s => s.respond false (BitVec.ofInt 32 (s.spos raw)) := rfl

theorem exec_mpos :
    exec .mpos s = s.command fun s => s.withRaw fun raw s =>
      s.accumulate (s.spos raw) (rollover s.turns s.last.toInt (s.spos raw)) := rfl

theorem exec_setz (value : Nat) :
    exec (.setz value) s = s.command fun s => State.saveAndRespond { s with zero := BitVec.ofNat 7 value } 0 := rfl

theorem exec_setzc :
    exec .setzc s = s.command fun s => s.withRaw fun raw s => State.saveAndRespond { s with zero := raw } 0 := rfl

theorem exec_getz : exec .getz s = s.command fun s => s.respond false (s.zero.setWidth 32) := rfl

theorem exec_setabs (target : Int) :
    exec (.setabs target) s = s.command fun s => s.withRaw fun raw s => s.recalibrate target raw := rfl

/-- What a command that reads the encoder does with a valid reading (nothing, for the two that read none). -/
def afterReading : Instr → BitVec 7 → State → State
  | .raw, raw, s => s.respond false (raw.setWidth 32)
  | .upos, raw, s => s.respond false (BitVec.ofNat 32 (s.upos raw))
  | .spos, raw, s => s.respond false (BitVec.ofInt 32 (s.spos raw))
  | .mpos, raw, s => s.accumulate (s.spos raw) (rollover s.turns s.last.toInt (s.spos raw))
  | .setz _, _, s => s
  | .setzc, raw, s => State.saveAndRespond { s with zero := raw } 0
  | .getz, _, s => s
  | .setabs target, raw, s => s.recalibrate target raw

theorem exec_of_readsEncoder {i : Instr} (h : readsEncoder i = true) :
    exec i s = s.command fun s => s.withRaw (afterReading i) := by
  cases i <;> first | rfl | cases h

variable {s}

/-- Everything a command can do: NOT_READY, a failed reading, what it does with a valid reading, or the whole of SETZ or
GETZ, which read nothing. -/
theorem exec_cases {i : Instr} {t : State} (h : exec i s = .next t) :
    (s.mode = .failed ∧ t = s.raise .notReady (s.failCause.code.setWidth 32)) ∨
    (s.mode = .ready ∧ readsEncoder i = true ∧ s.nextBusRead = .fail ∧ t = s.afterBusRead.raise .busError 0) ∨
    (s.mode = .ready ∧ readsEncoder i = true ∧ ∃ p, s.nextBusRead = .byte p ∧ lookupRaw s.table p = none ∧
      t = s.afterBusRead.raise .decodeError (p.setWidth 32)) ∨
    (s.mode = .ready ∧ readsEncoder i = true ∧ ∃ p raw, s.nextBusRead = .byte p ∧ lookupRaw s.table p = some raw ∧
      t = afterReading i raw s.afterBusRead) ∨
    (s.mode = .ready ∧ i = .getz ∧ t = s.respond false (s.zero.setWidth 32)) ∨
    (s.mode = .ready ∧ ∃ value, i = .setz value ∧
      t = State.saveAndRespond { s with zero := BitVec.ofNat 7 value } 0) := by
  cases hr : readsEncoder i with
  | true =>
    rw [exec_of_readsEncoder s hr] at h
    rcases State.command_cases h with hf | ⟨hm, h⟩
    · exact .inl hf
    · rcases State.withRaw_cases s (afterReading i) with ⟨h1, hc⟩ | ⟨p, h1, h2, hc⟩ | ⟨p, raw, h1, h2, hc⟩
      · exact .inr (.inl ⟨hm, rfl, h1, h.trans hc⟩)
      · exact .inr (.inr (.inl ⟨hm, rfl, p, h1, h2, h.trans hc⟩))
      · exact .inr (.inr (.inr (.inl ⟨hm, rfl, p, raw, h1, h2, h.trans hc⟩)))
  | false =>
    cases i with
    | getz =>
      rw [exec_getz] at h
      rcases State.command_cases h with hf | ⟨hm, h⟩
      · exact .inl hf
      · exact .inr (.inr (.inr (.inr (.inl ⟨hm, rfl, h⟩))))
    | setz value =>
      rw [exec_setz] at h
      rcases State.command_cases h with hf | ⟨hm, h⟩
      · exact .inl hf
      · exact .inr (.inr (.inr (.inr (.inr ⟨hm, value, rfl, h⟩))))
    | raw => cases hr
    | upos => cases hr
    | spos => cases hr
    | mpos => cases hr
    | setzc => cases hr
    | setabs target => cases hr

/-- A command that answers OK ran its body on a READY block. -/
theorem State.command_ok {t : State} {body : State → State} {r : Response} (h : s.command body = .next t)
    (hr : t.response = some r) (hok : r.status = .ok) : s.mode = .ready ∧ t = body s := by
  rcases State.command_cases h with ⟨_, rfl⟩ | h
  · simp only [State.raise_response, Option.some.injEq] at hr; subst hr; cases hok
  · exact h

/-- A reading command that answers OK read a valid position. -/
theorem State.withRaw_ok {t : State} {rest : BitVec 7 → State → State} {r : Response} (h : t = s.withRaw rest)
    (hr : t.response = some r) (hok : r.status = .ok) :
    ∃ p raw, s.nextBusRead = .byte p ∧ lookupRaw s.table p = some raw ∧ t = rest raw s.afterBusRead := by
  rcases State.withRaw_cases s rest with ⟨_, hc⟩ | ⟨p, _, _, hc⟩ | ⟨p, raw, h1, h2, hc⟩
  · rw [hc] at h; subst h; simp only [State.raise_response, Option.some.injEq] at hr; subst hr; cases hok
  · rw [hc] at h; subst h; simp only [State.raise_response, Option.some.injEq] at hr; subst hr; cases hok
  · exact ⟨p, raw, h1, h2, h.trans hc⟩

/-! ### The step -/

theorem step_idle (h : s.host = []) : step s = .next s := by
  simp [step, h]

theorem step_command {w : CommandWord} {rest : List HostEvent} (h : s.host = .command w :: rest) :
    step s = State.runWord { s with host := rest } w := by
  simp [step, h]

theorem step_reset {inputs : ConfigInputs} {rest : List HostEvent} (h : s.host = .reset inputs :: rest) :
    step s = .next (State.runReset { s with host := rest } inputs) := by
  simp [step, h]

end Sys2Proof.Machine
end

