-- ==== Sys2Proof/Laws/PerInstr.lean ====
section
/-! SUPPORT. Facts about every instruction as syntax, one lemma per constructor. -/

namespace Sys2Proof.Laws.EncodedFields

/-- The encoded word of an instruction carries its opcode in OPC and its operand in OPND (30_encoding R71). -/
def Statement (i : Instr) : Prop := opcField (encode i) = i.opcode ∧ opndField (encode i) = i.operand

/-- The fields of any OPC and OPND put together are those two. -/
theorem of_append (o : Byte) (d : Word32) :
    opcField ((o ++ d : BitVec (8 + 32))) = o ∧ opndField ((o ++ d : BitVec (8 + 32))) = d := by
  constructor
  · unfold opcField
    ext k hk
    simp only [BitVec.getElem_extractLsb', BitVec.getLsbD_append]
    rw [if_neg (by omega)]
    simp [hk]
  · unfold opndField
    ext k hk
    simp only [BitVec.getElem_extractLsb', BitVec.getLsbD_append]
    rw [if_pos (by omega)]
    simp [hk]

theorem raw : Statement .raw := of_append _ _
theorem upos : Statement .upos := of_append _ _
theorem spos : Statement .spos := of_append _ _
theorem mpos : Statement .mpos := of_append _ _
theorem setz (value : Nat) : Statement (.setz value) := of_append _ _
theorem setzc : Statement .setzc := of_append _ _
theorem getz : Statement .getz := of_append _ _
theorem setabs (target : Int) : Statement (.setabs target) := of_append _ _

end Sys2Proof.Laws.EncodedFields
end

