-- ==== Sys2Proof/Tests/Slice0.lean ====
section
/-! SUPPORT. The model's own tests: ill-formed terms refused, words written out from the encoding, the vectors of
spec/95_test_vectors.md, and for each statement with hypotheses a concrete state and operands that meet them. -/

namespace Sys2Proof.Tests

open Sys2Proof.Machine

/-! ### Ill-formed commands are refused -/

theorem test_setz_256_ill_formed : (Instr.setz 256).wf = false := by decide
theorem test_setabs_above_i32_ill_formed : (Instr.setabs 2147483648).wf = false := by decide
theorem test_setabs_below_i32_ill_formed : (Instr.setabs (-2147483649)).wf = false := by decide

/-! ### Words written out bit by bit from the formats of 30_encoding R71 to R73 -/

theorem test_decode_raw : decode 0b00000001_00000000_00000000_00000000_00000000#40 = .ok .raw := by decide
theorem test_decode_upos : decode 0b00000010_00000000_00000000_00000000_00000000#40 = .ok .upos := by decide
theorem test_decode_spos : decode 0b00000011_00000000_00000000_00000000_00000000#40 = .ok .spos := by decide
theorem test_decode_mpos : decode 0b00000100_00000000_00000000_00000000_00000000#40 = .ok .mpos := by decide
theorem test_decode_setz : decode 0b00000101_00000000_00000000_00000000_10000101#40 = .ok (.setz 133) := by decide
theorem test_decode_setzc : decode 0b00000110_00000000_00000000_00000000_00000000#40 = .ok .setzc := by decide
theorem test_decode_getz : decode 0b00000111_00000000_00000000_00000000_00000000#40 = .ok .getz := by decide
theorem test_decode_setabs :
    decode 0b00001000_11111111_11111111_11111100_00011000#40 = .ok (.setabs (-1000)) := by decide
theorem test_decode_setabs_min :
    decode 0b00001000_10000000_00000000_00000000_00000000#40 = .ok (.setabs (-2147483648)) := by decide

theorem test_decode_table_word : decodeTableWord 40 0x05000000FF = some (.setz 255) := by decide
theorem test_decode_table_word_illegal : decodeTableWord 40 0x05000001FF = none := by decide

/-- The illegal words of 95_test_vectors section 2.7, each refused by name. -/
theorem test_illegal_words :
    decode 0x0000000000 = .error (.reservedOpcode 0x00) ∧ decode 0x0900000000 = .error (.reservedOpcode 0x09) ∧
    decode 0xFFFFFFFFFF = .error (.reservedOpcode 0xFF) ∧ decode 0x0100000001 = .error .operandBits ∧
    decode 0x0480000000 = .error .operandBits ∧ decode 0x0780000000 = .error .operandBits ∧
    decode 0x05000001FF = .error .operandBits := by decide

theorem test_encode_setabs : encode (.setabs (-65)) = 0x08FFFFFFBF := by decide

/-- A failure status with WARN = 1, as case RS7 of 95_test_vectors section 2.9 reports. -/
theorem test_response_word :
    Response.word { status := .decodeError, warn := true, data := 0xFF } = 0x3000000FF := by decide

theorem test_assemble_setz : assemble "SETZ #0x85 ; set zero".toList = .word 0x0500000085 := by decide
theorem test_assemble_setabs : assemble "SETABS #-1000".toList = .word 0x08FFFFFC18 := by decide
theorem test_assemble_refusals :
    assemble "SETZ #256".toList = .malformed ∧ assemble "SETABS #2147483648".toList = .malformed ∧
    assemble "RAW #1".toList = .malformed ∧ assemble "SETZ".toList = .malformed ∧
    assemble "  ; a comment".toList = .empty := by decide

/-! ### The table builder on the test track of 95_test_vectors section 0 -/

/-- TEST_TRACK, a synthetic track for tests: not the value of TRACK_SPEC. -/
def track : Vector Byte 16 :=
  #v[0xFF, 0xFF, 0x55, 0xAA, 0x33, 0x67, 0x0F, 0x1E, 0x00, 0xFE, 0x00, 0x01, 0x00, 0x00, 0x00, 0x00]

theorem test_pattern_identity_wiring :
    [0, 1, 5, 16, 63, 64, 100, 127].map (pattern track identityWiring) =
      [0x80, 0xC0, 0xD0, 0x01, 0x25, 0x08, 0x24, 0x52] := by decide +kernel

theorem test_pattern_other_wiring :
    [0, 5, 16].map (pattern track #v[1, 2, 3, 4, 5, 6, 7, 8]) = [0x01, 0x0B, 0x80] := by decide +kernel

/-- Cases B4 and B5. -/
theorem test_illegal_pin_orders :
    legalPinOrder #v[1, 1, 2, 3, 4, 5, 6, 7] = false ∧ legalPinOrder #v[0, 2, 3, 4, 5, 6, 7, 8] = false ∧
    legalPinOrder #v[9, 2, 3, 4, 5, 6, 7, 8] = false := by decide

theorem test_legal_pin_order : legalPinOrder identityWiring = true := by decide

/-- Cases B6 and B8. -/
theorem test_illegal_tracks :
    legalTrack (Vector.replicate 16 0x00) = false ∧ legalTrack (Vector.replicate 16 0x55) = false := by decide +kernel

theorem test_legal_track : legalTrack track = true := by decide +kernel

/-- Entries of the TABLE of 95_test_vectors section 0.2, sentinels among them. -/
theorem test_table_entries :
    [0x00, 0x05, 0x11, 0x3F, 0x52, 0x80, 0x88, 0xA3, 0xD0, 0xE8, 0xF8, 0xFF].map
        (Memory.read (build track identityWiring)) =
      [255, 50, 255, 255, 127, 0, 255, 42, 5, 10, 14, 255] := by decide +kernel

/-! ### Small states -/

/-- Some entries of that TABLE, so that a test of one command need not build it. -/
def table : Memory :=
  [(0x05, 50), (0x08, 64), (0x09, 68), (0x1F, 94), (0x25, 63), (0x52, 127), (0x80, 0), (0x8E, 74)] ++
  [(0xC0, 1), (0xC6, 60), (0xD0, 5), (0xE8, 10), (0xF0, 7)]

/-- A READY block with no store, ZERO = 0 and the given TURNS and LAST, whose bus answers as listed. -/
def block (turns last : Int) (bus : List BusReply) : State :=
  { trackSpec := track
    busAddr := 0
    pinOrder := identityWiring
    reverse := false
    persistConfigured := false
    table := table
    zero := 0
    turnNumber := turnNumberOf turns
    last := BitVec.ofInt 8 last
    lastSaved := none
    mode := .ready
    failCause := .none
    response := none
    storeCell := none
    host := []
    busReads := bus
    busWrites := [.ok]
    storeLoads := [.ok]
    storeSaves := []
    requests := [] }

/-- The block with a store configured that answers its first save so. -/
def stored (turns last : Int) (bus : List BusReply) (save : SaveReply) : State :=
  { block turns last bus with persistConfigured := true, storeSaves := [save] }

/-- The block with the TABLE that BUILD makes, and a store that serves its first save. -/
def built : State := { stored 0 0 [.byte 0xFF] .ok with table := build track identityWiring }

/-- The block after a command. -/
def after (i : Instr) (s : State) : State :=
  match exec i s with
  | .next t => t
  | .fault _ => s
  | .refused _ => s

/-- STATUS, WARN and DATA of a block's response. -/
def answer (s : State) : Option (Status × Bool × Int) :=
  s.response.map fun r => (r.status, r.warn, r.data.toInt)

theorem exec_after (i : Instr) (s : State) : exec i s = .next (after i s) := by cases i <;> rfl

/-! ### One command each, from 95_test_vectors sections 2.2 to 2.8 -/

theorem test_raw : answer (after .raw (block 0 0 [.byte 0x52])) = some (.ok, false, 127) := by decide
theorem test_raw_errors :
    answer (after .raw (block 0 0 [.byte 0xFF])) = some (.decodeError, false, 255) ∧
    answer (after .raw (block 0 0 [.fail])) = some (.busError, false, 0) := by decide

theorem test_upos : answer (after .upos { block 0 0 [.byte 0x80] with zero := 100 }) = some (.ok, false, 28) := by decide
theorem test_upos_reverse :
    answer (after .upos { block 0 0 [.byte 0xF0] with zero := 5, reverse := true }) = some (.ok, false, 126) := by decide

theorem test_spos : answer (after .spos { block 0 0 [.byte 0x8E] with zero := 10 }) = some (.ok, false, -64) := by decide
theorem test_spos_reverse :
    answer (after .spos { block 0 0 [.byte 0xC0] with reverse := true }) = some (.ok, false, -1) := by decide

theorem test_mpos_forward :
    answer (after .mpos (block 2147483392 63 [.byte 0x08])) = some (.ok, false, 2147483456) ∧
    (after .mpos (block 2147483392 63 [.byte 0x08])).turns = 2147483520 := by decide
theorem test_mpos_overflow :
    answer (after .mpos (block (-2147483520) (-64) [.byte 0x25])) = some (.turnOverflow, false, 0) ∧
    (after .mpos (block (-2147483520) (-64) [.byte 0x25])).last.toInt = -64 := by decide

theorem test_setz_takes_low_seven_bits : (after (.setz 133) (block 0 0 [])).zero = 5 := by decide
/-- Case S4: the save fails, ZERO stays committed. -/
theorem test_setz_failed_save :
    answer (after (.setz 9) (stored 0 0 [] (.fail none))) = some (.ok, true, 0) ∧
    (after (.setz 9) (stored 0 0 [] (.fail none))).zero = 9 := by decide

theorem test_setzc : (after .setzc (block 0 0 [.byte 0x52])).zero = 127 := by decide
theorem test_getz : answer (after .getz { block 0 0 [] with zero := 100 }) = some (.ok, false, 100) := by decide

theorem test_setabs :
    (after (.setabs (-1000)) (block 0 0 [.byte 0x05])).zero = 26 ∧
    (after (.setabs (-1000)) (block 0 0 [.byte 0x05])).last.toInt = 24 ∧
    (after (.setabs (-1000)) (block 0 0 [.byte 0x05])).turns = -1024 := by decide
theorem test_setabs_reverse :
    (after (.setabs 500) { block 0 0 [.byte 0xD0] with reverse := true }).zero = 121 ∧
    (after (.setabs 500) { block 0 0 [.byte 0xD0] with reverse := true }).last.toInt = -12 ∧
    (after (.setabs 500) { block 0 0 [.byte 0xD0] with reverse := true }).turns = 512 := by decide

/-- The scenario of R291 in program P4: a spurious forward rollover after a re-zero. -/
theorem test_mpos_after_rezero :
    (after .mpos { block 0 60 [.byte 0xC6] with zero := 120 }).turns = 128 ∧
    answer (after .mpos { block 0 60 [.byte 0xC6] with zero := 120 }) = some (.ok, false, 68) := by decide

/-! ### The hypotheses of the statements can be met -/

theorem witness_DecodeEncodeRoundTrip :
    (Instr.setz 255).wf = true ∧ (Instr.setabs (-2147483648)).wf = true ∧ (Instr.setabs 2147483647).wf = true := by
  decide

theorem witness_DecodedWordIsItsEncoding : decode 0x05000000FF = .ok (.setz 255) := by decide

theorem witness_StepRunsDecodedCommand :
    ({ block 0 0 [] with host := [.command 0x0700000000] } : State).host = .command 0x0700000000 :: [] ∧
    decode 0x0700000000 = .ok .getz := by decide

theorem witness_IllegalWordChangesNothing :
    ({ block 0 0 [] with host := [.command 0x0100000001] } : State).host = .command 0x0100000001 :: [] ∧
    (block 0 0 []).mode = .ready ∧ decode 0x0100000001 = .error .operandBits := by decide

theorem witness_FailedBlockAnswersNotReady :
    ({ block 0 0 [] with host := [.command 0], mode := .failed, failCause := .decode } : State).host =
      .command 0 :: [] ∧
    ({ block 0 0 [] with host := [.command 0], mode := .failed, failCause := .decode } : State).mode = .failed := by
  decide

theorem witness_IdleBlockDoesNothing : (block 0 0 []).host = [] := by decide

theorem witness_PatternReadsTrackAtPhase : legalPinOrder identityWiring = true ∧ 127 < 128 := by decide

theorem witness_TrackLegalityUnderAnyWiring : legalPinOrder #v[3, 1, 8, 2, 7, 5, 4, 6] = true := by decide

theorem witness_TableHoldsEachPositionOnce :
    legalTrack track = true ∧ legalPinOrder identityWiring = true ∧ 127 < 128 :=
  ⟨test_legal_track, by decide, by decide⟩

theorem built_calibrated : built.Calibrated :=
  ⟨by decide, by decide, by decide, test_legal_track, rfl, rfl, fun _ h => nomatch h⟩

theorem witness_AllLowAndAllHighAreSentinels :
    built.mode = .ready ∧ built.Calibrated ∧ built.nextBusRead = .byte 0xFF ∧ readsEncoder .raw = true :=
  ⟨rfl, built_calibrated, rfl, rfl⟩

theorem witness_RawReturnsRawPosition :
    (block 0 0 [.byte 0x52]).mode = .ready ∧ (block 0 0 [.byte 0x52]).ReadsPosition 0x52 127 := by
  unfold State.ReadsPosition; decide

theorem witness_UposReturnsUnsignedPosition :
    (block 0 0 [.byte 0x52]).mode = .ready ∧ (block 0 0 [.byte 0x52]).ReadsPosition 0x52 127 ∧ 127 ≤ 127 ∧
    (((127 : Nat) : Int) - (block 0 0 [.byte 0x52]).rawOffset 127) % 128 = 0 := by
  unfold State.ReadsPosition; decide

theorem witness_SposReturnsSignedPosition :
    (block 0 0 [.byte 0x08]).mode = .ready ∧ (block 0 0 [.byte 0x08]).ReadsPosition 0x08 64 ∧
    (block 0 0 [.byte 0x08]).IsSigned 64 (-64) := by
  unfold State.ReadsPosition State.IsSigned; decide

theorem witness_BusFailureEndsTheCommand :
    (block 0 0 [.fail]).mode = .ready ∧ readsEncoder (.setabs 0) = true ∧
    (block 0 0 [.fail]).nextBusRead = .fail := by decide

theorem witness_SentinelEndsTheCommand :
    (block 0 0 [.byte 0xFF]).mode = .ready ∧ readsEncoder .mpos = true ∧
    (block 0 0 [.byte 0xFF]).nextBusRead = .byte 0xFF ∧ (block 0 0 [.byte 0xFF]).readTable 0xFF = 255 := by decide

/-- Both clauses, each at a boundary of its range: RAW answers 127, SPOS answers -64. -/
theorem witness_PositionsStayInRange :
    (exec .raw (block 0 0 [.byte 0x52]) = .next (after .raw (block 0 0 [.byte 0x52])) ∧
      answer (after .raw (block 0 0 [.byte 0x52])) = some (.ok, false, 127)) ∧
    (exec .spos (block 0 0 [.byte 0x08]) = .next (after .spos (block 0 0 [.byte 0x08])) ∧
      answer (after .spos (block 0 0 [.byte 0x08])) = some (.ok, false, -64)) := by
  simp only [exec_after]; decide

theorem witness_SignedAgreesWithUnsigned :
    ({ block 0 0 [.byte 0xC0] with reverse := true } : State).mode = .ready ∧
    State.ReadsPosition { block 0 0 [.byte 0xC0] with reverse := true } 0xC0 1 ∧
    ({ block 0 0 [.byte 0xC0] with reverse := true } : State).zero = 0 := by
  unfold State.ReadsPosition; decide

/-- LAST = 30, and the bus shows raw 94, s = -34: a fall of exactly half a turn. -/
def falling : State := block 0 30 [.byte 0x1F]

/-- LAST = -64, and the bus shows raw 0, s = 0: a rise of exactly half a turn. -/
def rising : State := block 0 (-64) [.byte 0x80]

theorem witness_MposWithoutRollover :
    (falling.mode = .ready ∧ falling.ReadsPosition 0x1F 94 ∧ falling.IsSigned 94 (-34) ∧ turnsMin ≤ falling.turns ∧
      falling.last.toInt - (-34) = 64 ∧ -34 - falling.last.toInt ≤ 64) ∧
    (rising.mode = .ready ∧ rising.ReadsPosition 0x80 0 ∧ rising.IsSigned 0 0 ∧ turnsMin ≤ rising.turns ∧
      rising.last.toInt - 0 ≤ 64 ∧ 0 - rising.last.toInt = 64) := by
  unfold State.ReadsPosition State.IsSigned; decide

/-- LAST = 63, and the bus shows raw 64, s = -64. -/
def wrapping (turns : Int) : State := block turns 63 [.byte 0x08]

/-- LAST = -64, and the bus shows raw 63, s = 63. -/
def unwrapping (turns : Int) : State := block turns (-64) [.byte 0x25]

/-- A forward and a backward rollover that reach TURNS_MAX and TURNS_MIN. -/
theorem witness_MposCountsRollover :
    ((wrapping 2147483392).mode = .ready ∧ (wrapping 2147483392).ReadsPosition 0x08 64 ∧
      (wrapping 2147483392).IsSigned 64 (-64) ∧ (wrapping 2147483392).last.toInt - (-64) > 64 ∧
      turnsMin ≤ (wrapping 2147483392).turns + 128 ∧ (wrapping 2147483392).turns + 128 = turnsMax) ∧
    ((unwrapping (-2147483392)).mode = .ready ∧ (unwrapping (-2147483392)).ReadsPosition 0x25 63 ∧
      (unwrapping (-2147483392)).IsSigned 63 63 ∧ 63 - (unwrapping (-2147483392)).last.toInt > 64 ∧
      (unwrapping (-2147483392)).turns - 128 = turnsMin ∧ (unwrapping (-2147483392)).turns - 128 ≤ turnsMax) := by
  unfold State.ReadsPosition State.IsSigned; decide

theorem witness_MposOverflowCommitsNothing :
    ((wrapping 2147483520).mode = .ready ∧ (wrapping 2147483520).ReadsPosition 0x08 64 ∧
      (wrapping 2147483520).IsSigned 64 (-64) ∧ (wrapping 2147483520).last.toInt - (-64) > 64 ∧
      turnsMax < (wrapping 2147483520).turns + 128) ∧
    ((unwrapping (-2147483520)).mode = .ready ∧ (unwrapping (-2147483520)).ReadsPosition 0x25 63 ∧
      (unwrapping (-2147483520)).IsSigned 63 63 ∧ 63 - (unwrapping (-2147483520)).last.toInt > 64 ∧
      (unwrapping (-2147483520)).turns - 128 < turnsMin) := by
  unfold State.ReadsPosition State.IsSigned; decide

theorem witness_MposResultIsTurnsPlusLast :
    exec .mpos (wrapping 0) = .next (after .mpos (wrapping 0)) ∧
    (after .mpos (wrapping 0)).response = some { status := .ok, warn := false, data := 64 } ∧
    (wrapping 0).ReadsPosition 0x08 64 := by
  unfold State.ReadsPosition; simp only [exec_after]; decide

/-- Both clauses: a rollover that saves the new record, and a reading without one. -/
theorem witness_MposSavesOnRolloverOnly :
    (exec .mpos (stored 0 63 [.byte 0x08] .ok) = .next (after .mpos (stored 0 63 [.byte 0x08] .ok)) ∧
      (after .mpos (stored 0 63 [.byte 0x08] .ok)).response = some { status := .ok, warn := false, data := 64 } ∧
      (0 : BitVec 8).toNat = (after .mpos (stored 0 63 [.byte 0x08] .ok)).zero.toNat ∧
      (128 : BitVec 32).toInt = (after .mpos (stored 0 63 [.byte 0x08] .ok)).turns ∧
      (after .mpos (stored 0 63 [.byte 0x08] .ok)).turns ≠ (stored 0 63 [.byte 0x08] .ok).turns) ∧
    (exec .mpos rising = .next (after .mpos rising) ∧
      (after .mpos rising).response = some { status := .ok, warn := false, data := 0 } ∧
      (0 : BitVec 8).toNat = (after .mpos rising).zero.toNat ∧ (0 : BitVec 32).toInt = (after .mpos rising).turns ∧
      (after .mpos rising).turns = rising.turns) := by
  simp only [exec_after]; decide

/-- LAST = 0, and the bus shows s = 60 and then s = -60. -/
def forward : State := block 2147483392 0 [.byte 0xC6, .byte 0x09]

/-- LAST = 0, and the bus shows s = -60 and then s = 60. -/
def backward : State := block (-2147483392) 0 [.byte 0x09, .byte 0xC6]

theorem witness_RolloverMovesTurnsBy128 :
    (forward.mode = .ready ∧ forward.last = 0 ∧ turnsMin ≤ forward.turns ∧ forward.turns + 128 = turnsMax ∧
      forward.ReadsPosition 0xC6 60 ∧ forward.IsSigned 60 60 ∧ forward.afterBusRead.ReadsPosition 0x09 68 ∧
      forward.IsSigned 68 (-60)) ∧
    (backward.mode = .ready ∧ backward.last = 0 ∧ turnsMin = backward.turns - 128 ∧ backward.turns ≤ turnsMax ∧
      backward.ReadsPosition 0x09 68 ∧ backward.IsSigned 68 (-60) ∧ backward.afterBusRead.ReadsPosition 0xC6 60 ∧
      backward.IsSigned 60 60) := by
  unfold State.ReadsPosition State.IsSigned; decide

/-- The shaft went from raw 5 forward by 63 to raw 68. -/
def turned : State := block 128 5 [.byte 0x09]

theorem witness_MposTracksShaftMotion :
    turned.mode = .ready ∧ turned.IsSigned 5 turned.last.toInt ∧ turned.ReadsPosition 0x09 68 ∧
    (((68 : BitVec 7).toNat : Int) - ((5 : BitVec 7).toNat + (if turned.reverse then -63 else 63))) % 128 = 0 ∧
    turnsMin ≤ turned.turns ∧ turned.turns ≤ turnsMax ∧
    -2147483584 ≤ turned.turns + turned.last.toInt + 63 ∧ turned.turns + turned.last.toInt + 63 ≤ 2147483583 := by
  unfold State.ReadsPosition State.IsSigned; decide

theorem witness_SetzSetsZeroModulo128 : (block 0 0 []).mode = .ready := by decide

theorem witness_GetzReturnsZero : (block 0 0 []).mode = .ready := by decide

theorem witness_SetzcSetsZeroToReading :
    (block 0 0 [.byte 0x52]).mode = .ready ∧ (block 0 0 [.byte 0x52]).ReadsPosition 0x52 127 := by
  unfold State.ReadsPosition; decide

/-- The bus shows raw 50 twice. -/
def still : State := block 0 0 [.byte 0x05, .byte 0x05]

/-- The least and the greatest target that SETABS accepts, and their neighbours that it does not. -/
theorem witness_SetabsRecalibrates :
    still.mode = .ready ∧ still.ReadsPosition 0x05 50 ∧
    answer (after (.setabs (-2147483584)) still) = some (.ok, false, 0) ∧
    answer (after (.setabs 2147483583) still) = some (.ok, false, 0) := by
  unfold State.ReadsPosition; decide

theorem witness_SetabsOverflowCommitsNothing :
    still.mode = .ready ∧ still.ReadsPosition 0x05 50 ∧
    answer (after (.setabs (-2147483585)) still) = some (.turnOverflow, false, 0) ∧
    answer (after (.setabs 2147483584) still) = some (.turnOverflow, false, 0) := by
  unfold State.ReadsPosition; decide

/-- Raw 5, then raw 68, 63 positions on. -/
def moved : State := block 0 0 [.byte 0xD0, .byte 0x09]

/-- The hypotheses of SetabsThenMposReportsTarget but the range of target + m: SETABS at raw `raw`, then the bus shows a
position `m` away. -/
def RoundTrip (s : State) (target m : Int) (p p' : Byte) (raw raw' : BitVec 7) : Prop :=
  s.ReadsPosition p raw ∧ exec (.setabs target) s = .next (after (.setabs target) s) ∧
  (after (.setabs target) s).response = some { status := .ok, warn := false, data := 0 } ∧
  (after (.setabs target) s).ReadsPosition p' raw' ∧ -63 ≤ m ∧ m ≤ 63 ∧
  ((raw'.toNat : Int) - (raw.toNat + (if s.reverse then -m else m))) % 128 = 0

/-- Raw 68, then raw 5, 63 positions back. -/
def movedBack : State := block 0 0 [.byte 0x09, .byte 0xD0]

/-- Raw 63, then raw 64. -/
def oneOn : State := block 0 0 [.byte 0x25, .byte 0x08]

/-- Raw 64, then raw 63. -/
def oneBack : State := block 0 0 [.byte 0x08, .byte 0x25]

/-- The shaft stays where it is (m = 0), moves so that MPOS answers the greatest and the least value, and moves one past
each of them. -/
theorem witness_SetabsThenMposReportsTarget :
    RoundTrip still 500 0 0x05 0x05 50 50 ∧
    (RoundTrip moved 2147483520 63 0xD0 0x09 5 68 ∧ (2147483520 : Int) + 63 = 2147483583) ∧
    (RoundTrip movedBack (-2147483521) (-63) 0x09 0xD0 68 5 ∧ (-2147483521 : Int) + -63 = -2147483584) ∧
    (RoundTrip oneOn 2147483583 1 0x25 0x08 63 64 ∧ 2147483583 < (2147483583 : Int) + 1) ∧
    (RoundTrip oneBack (-2147483584) (-1) 0x08 0x25 64 63 ∧ (-2147483584 : Int) + -1 < -2147483584) := by
  unfold RoundTrip State.ReadsPosition; simp only [exec_after]; decide

theorem witness_SetzcMakesThePatternZero :
    exec .setzc still = .next (after .setzc still) ∧
    (after .setzc still).response = some { status := .ok, warn := false, data := 0 } ∧
    still.nextBusRead = .byte 0x05 ∧ (after .setzc still).mode = .ready ∧
    (after .setzc still).nextBusRead = .byte 0x05 := by
  simp only [exec_after]; decide

theorem witness_GetzAfterSetZeroReturnsIt :
    still.mode = .ready ∧ exec (.setz 133) still = .next (after (.setz 133) still) ∧ still.ReadsPosition 0x05 50 ∧
    exec .setzc still = .next (after .setzc still) := by
  unfold State.ReadsPosition; simp only [exec_after]; decide

theorem witness_LastSavedChangesOnlyBySaving :
    exec (.setz 7) (stored 0 0 [] .ok) = .next (after (.setz 7) (stored 0 0 [] .ok)) ∧
    (after (.setz 7) (stored 0 0 [] .ok)).lastSaved ≠ (stored 0 0 [] .ok).lastSaved := by
  simp only [exec_after]; decide

theorem witness_FailedSaveIsRetried :
    exec (.setz 9) (stored 0 0 [] (.fail none)) = .next (after (.setz 9) (stored 0 0 [] (.fail none))) ∧
    (after (.setz 9) (stored 0 0 [] (.fail none))).response = some { status := .ok, warn := true, data := 0 } := by
  simp only [exec_after]; decide

theorem witness_RepeatedSaveWritesOnce :
    (stored 0 0 [] .ok).mode = .ready ∧
    exec (.setz 7) (stored 0 0 [] .ok) = .next (after (.setz 7) (stored 0 0 [] .ok)) ∧
    (after (.setz 7) (stored 0 0 [] .ok)).response = some { status := .ok, warn := false, data := 0 } := by
  simp only [exec_after]; decide

/-- An error: the hypotheses of ErrorsCommitNothing. -/
theorem witness_ErrorsCommitNothing :
    exec .mpos (wrapping 2147483520) = .next (after .mpos (wrapping 2147483520)) ∧
    (after .mpos (wrapping 2147483520)).response = some { status := .turnOverflow, warn := false, data := 0 } ∧
    Status.turnOverflow ≠ .ok := by
  simp only [exec_after]; decide

/-- A command that reads the encoder and saves, and one that does neither. -/
theorem witness_RequestsOfEachCommand :
    ((stored 0 0 [.byte 0x52] .ok).mode = .ready ∧
      exec .setzc (stored 0 0 [.byte 0x52] .ok) = .next (after .setzc (stored 0 0 [.byte 0x52] .ok)) ∧
      readsEncoder .setzc = true ∧ maySave .setzc = true) ∧
    ((block 0 0 []).mode = .ready ∧ exec .getz (block 0 0 []) = .next (after .getz (block 0 0 [])) ∧
      readsEncoder .getz = false ∧ maySave .getz = false) := by
  simp only [exec_after]; decide

/-- One command for each of its conditional clauses. -/
theorem witness_CommandFrame :
    (exec .mpos (wrapping 0) = .next (after .mpos (wrapping 0)) ∧ writesZero .mpos = false) ∧
    (exec .setzc still = .next (after .setzc still) ∧ writesTurns .setzc = false) ∧
    (exec .raw still = .next (after .raw still) ∧ maySave .raw = false) ∧
    (exec (.setz 133) still = .next (after (.setz 133) still) ∧ readsEncoder (.setz 133) = false) := by
  simp only [exec_after]; decide

/-- A rollover that saves and warns. -/
theorem witness_CommandsReportTheirStatuses :
    (stored 0 63 [.byte 0x08] (.fail none)).mode = .ready ∧
    exec .mpos (stored 0 63 [.byte 0x08] (.fail none)) = .next (after .mpos (stored 0 63 [.byte 0x08] (.fail none))) ∧
    (after .mpos (stored 0 63 [.byte 0x08] (.fail none))).response =
      some { status := .ok, warn := true, data := 64 } := by
  simp only [exec_after]; decide

/-- The configuration inputs of the tests: identity wiring, with or without a store. -/
def wired (persist : Bool) : ConfigInputs :=
  { pinOrder := identityWiring, reverse := false, persistConfigured := persist }

/-- A block whose store holds `cell` and serves a load, and whose bus answers as listed. -/
def resetting (cell : Option Record) (bus : List BusReply) (inputs : ConfigInputs) : State :=
  { block 0 0 bus with storeCell := cell, host := [.reset inputs] }

/-- A reset with a legal configuration and a bus write that succeeds goes on to LOAD. -/
theorem boot_built (inputs : ConfigInputs) (a : BootAnswers) (r : Registers)
    (h : legalPinOrder inputs.pinOrder = true) (hw : a.write = .ok) :
    boot track 0 inputs a r =
      bootCalibrate 0 inputs.persistConfigured a { r with lastSaved := none, table := build track inputs.pinOrder }
        [.busWrite 0 busConfigureByte] := by
  simp [boot, test_legal_track, h, hw]

/-- Case RS8: the store holds {10, 256}. -/
def restoring : State := resetting (some { zero := 10, turns := 256 }) [.byte 0x52] (wired true)

theorem restoring_result :
    restoring.bootResult (wired true) =
      bootReady { restoring.registers with
          table := build track identityWiring, lastSaved := some { zero := 10, turns := 256 } }
        10 2 false [.busWrite 0 0xFF, .storeLoad] :=
  (boot_built _ _ _ (by decide) rfl).trans rfl

theorem test_reset_loads : (restoring.runReset (wired true)).zero = 10 ∧ (restoring.runReset (wired true)).turns = 256 := by
  unfold State.turns
  rw [State.runReset_zero, State.runReset_turnNumber, restoring_result]
  decide

/-- Case RS1: no store, the bus shows raw 42. -/
def defaulting : State := resetting none [.byte 0xA3] (wired false)

/-- The built TABLE decodes 0x52 to 127, 0xA3 to 42 and 0xFF to no position. -/
theorem built_entries :
    (build track identityWiring).read 0x52 = 127 ∧ (build track identityWiring).read 0xA3 = 42 ∧
    (build track identityWiring).read 0xFF = 255 := by
  have h := test_table_entries
  simp only [List.map_cons, List.cons.injEq] at h
  exact ⟨h.2.2.2.2.1, h.2.2.2.2.2.2.2.1, h.2.2.2.2.2.2.2.2.2.2.2.1⟩

theorem bootDefault_position {busAddr : Nat} {p raw : Byte} {r : Registers} {warn : Bool} {requests : List Request}
    (h : r.table.read p.toNat = raw) (hs : raw ≠ sentinel) :
    bootDefault busAddr (.byte p) r warn requests =
      bootReady r (raw.setWidth 7) 0 warn (requests ++ [.busRead busAddr]) := by
  subst h
  simp [bootDefault, lookupRaw, hs]

theorem defaulting_result :
    defaulting.bootResult (wired false) =
      bootReady { defaulting.registers with table := build track identityWiring, lastSaved := none } 42 0 false
        ([.busWrite 0 0xFF] ++ [] ++ [.busRead 0]) :=
  (boot_built _ _ _ (by decide) rfl).trans
    (bootDefault_position (busAddr := 0) (p := 0xA3) (raw := 42) built_entries.2.1 (by decide))

theorem test_reset_defaults :
    (defaulting.runReset (wired false)).zero = 42 ∧ (defaulting.runReset (wired false)).mode = .ready := by
  rw [State.runReset_zero, State.runReset_mode, defaulting_result]
  decide

theorem restoring_table : (restoring.runReset (wired true)).table = build track identityWiring := by
  rw [State.runReset_table, restoring_result]
  rfl

theorem restoring_busReads : (restoring.runReset (wired true)).busReads = [.byte 0x52] := by
  unfold State.runReset
  rw [restoring_result]
  rfl

theorem restoring_mode : (restoring.runReset (wired true)).mode = .ready := by
  rw [State.runReset_mode, restoring_result]
  rfl

theorem readsPosition_of {s : State} {p : Byte} {raw : BitVec 7} {rest : List BusReply} {m : Memory}
    (hb : s.busReads = .byte p :: rest) (ht : s.table = m) (h : m.read p.toNat = raw.setWidth 8) :
    s.ReadsPosition p raw := by
  subst ht
  exact ⟨by unfold State.nextBusRead; rw [hb], h⟩

theorem restoring_reads : (restoring.runReset (wired true)).ReadsPosition 0x52 127 :=
  readsPosition_of restoring_busReads restoring_table built_entries.1

theorem restoring_signed : (restoring.runReset (wired true)).IsSigned 127 (-11) := by
  unfold State.IsSigned State.rawOffset
  rw [test_reset_loads.1, State.runReset_reverse]
  decide

theorem witness_FirstMposAfterResetCountsNoRollover :
    (restoring.runReset (wired true)).mode = .ready ∧ (restoring.runReset (wired true)).ReadsPosition 0x52 127 ∧
    (restoring.runReset (wired true)).IsSigned 127 (-11) :=
  ⟨restoring_mode, restoring_reads, restoring_signed⟩

/-- Both clauses: a command, and a reset, with no store configured. -/
theorem witness_UnconfiguredStoreIsNeverAsked :
    (still.persistConfigured = false ∧ exec .setzc still = .next (after .setzc still)) ∧
    (wired false).persistConfigured = false := by
  simp only [exec_after]; decide

/-- SETZ saves, and the store serves the load of the next reset. -/
theorem witness_SavedCalibrationSurvivesReset :
    built.mode = .ready ∧ built.Calibrated ∧ exec (.setz 7) built = .next (after (.setz 7) built) ∧
    (after (.setz 7) built).lastSaved ≠ built.lastSaved ∧ legalPinOrder (wired true).pinOrder = true ∧
    (wired true).persistConfigured = true ∧ (after (.setz 7) built).nextBusWrite = .ok ∧
    (after (.setz 7) built).nextStoreLoad ≠ .fail :=
  ⟨rfl, built_calibrated, exec_after _ _, by decide, by decide, rfl, rfl, by decide⟩

/-- The configuration inputs of case RS5. -/
def miswired : ConfigInputs := { wired false with pinOrder := #v[1, 1, 2, 3, 4, 5, 6, 7] }

/-- Case RS5: a reset takes a READY block to FAILED. -/
theorem test_reset_config_error :
    ((block 0 0 []).runReset miswired).mode = .failed ∧ ((block 0 0 []).runReset miswired).failCause = .config ∧
    answer ((block 0 0 []).runReset miswired) = some (.configError, false, 0) := by decide

theorem witness_OnlyResetLeavesFailed :
    step { block 0 0 [] with host := [.reset miswired] } = .next ((block 0 0 []).runReset miswired) ∧
    ((block 0 0 []).runReset miswired).mode ≠ (block 0 0 []).mode := ⟨rfl, by decide⟩

/-- Cases RS5 and RS6, one for each alternative. -/
theorem witness_ResetRefusesMalformedConfiguration :
    (resetting none [] miswired).host = .reset miswired :: [] ∧ legalPinOrder miswired.pinOrder = false ∧
    legalTrack ({ resetting none [] (wired false) with trackSpec := Vector.replicate 16 0x00 } : State).trackSpec = false :=
  ⟨rfl, by decide, test_illegal_tracks.1⟩

/-- Case RS2. -/
theorem witness_ResetFailsOnBusWrite :
    ({ defaulting with busWrites := [.fail] } : State).host = .reset (wired false) :: [] ∧
    legalPinOrder (wired false).pinOrder = true ∧
    legalTrack ({ defaulting with busWrites := [.fail] } : State).trackSpec = true ∧
    ({ defaulting with busWrites := [.fail] } : State).nextBusWrite = .fail :=
  ⟨rfl, by decide, test_legal_track, rfl⟩

/-- A record at the ends of the ranges: zero 127, TURNS_MIN. -/
theorem witness_ResetRestoresTheRecord :
    (resetting (some { zero := 127, turns := 0x80000080 }) [] (wired true)).host = .reset (wired true) :: [] ∧
    legalPinOrder (wired true).pinOrder = true ∧
    legalTrack (resetting (some { zero := 127, turns := 0x80000080 }) [] (wired true)).trackSpec = true ∧
    (resetting (some { zero := 127, turns := 0x80000080 }) [] (wired true)).nextBusWrite = .ok ∧
    (wired true).persistConfigured = true ∧
    (resetting (some { zero := 127, turns := 0x80000080 }) [] (wired true)).nextStoreLoad =
      .found { zero := 127, turns := 0x80000080 } ∧
    (127 : BitVec 8).toNat ≤ 127 ∧ (0x80000080 : BitVec 32).toInt % 128 = 0 ∧
    turnsMin = (0x80000080 : BitVec 32).toInt ∧ (0x80000080 : BitVec 32).toInt ≤ turnsMax :=
  ⟨rfl, by decide, test_legal_track, rfl, rfl, rfl, by decide⟩

/-- The alternatives of ResetDefaultsToTheReading: no store configured (RS1), no record (S1), a load that fails (S10),
and a record the registers cannot hold, for each reason (S8, S9, S12 and its mirror image). -/
theorem witness_ResetDefaultsToTheReading :
    (defaulting.host = .reset (wired false) :: [] ∧ legalPinOrder (wired false).pinOrder = true ∧
      legalTrack defaulting.trackSpec = true ∧ defaulting.nextBusWrite = .ok ∧
      (wired false).persistConfigured = false) ∧
    (resetting none [] (wired true)).nextStoreLoad = .absent ∧
    ({ resetting none [] (wired true) with storeLoads := [.fail] } : State).nextStoreLoad = .fail ∧
    (∀ rec : Record, (resetting (some rec) [] (wired true)).nextStoreLoad = .found rec) ∧
    127 < (128 : BitVec 8).toNat ∧ (100 : BitVec 32).toInt % 128 ≠ 0 ∧ (0x80000000 : BitVec 32).toInt < turnsMin ∧
    turnsMax < (0x7FFFFFFF : BitVec 32).toInt :=
  ⟨⟨rfl, by decide, test_legal_track, rfl, rfl⟩, rfl, rfl, fun _ => rfl, by decide⟩

/-- Its three endings: the read fails (RS3), a sentinel (RS4), a position (RS1). -/
theorem witness_ResetDefaultsToTheReading_reads :
    (resetting none [.fail] (wired false)).nextBusRead = .fail ∧
    ((resetting none [.byte 0xFF] (wired false)).nextBusRead = .byte 0xFF ∧
      (build track identityWiring).read (0xFF : Byte).toNat = 255) ∧
    (defaulting.nextBusRead = .byte 0xA3 ∧
      (build track identityWiring).read (0xA3 : Byte).toNat = BitVec.setWidth 8 (42 : BitVec 7)) :=
  ⟨rfl, ⟨rfl, built_entries.2.2⟩, ⟨rfl, built_entries.2.1⟩⟩

/-- A READY block that meets the invariant, for ReadyStatesMeetTheRanges. -/
theorem witness_ReadyStatesMeetTheRanges : built.Inv ∧ built.mode = .ready :=
  ⟨⟨build_wf track identityWiring, nofun, fun _ => built_calibrated⟩, rfl⟩

theorem witness_EveryStepKeepsTheInvariant :
    State.Inv { built with host := [.command 0x0500000007] } ∧
    step { built with host := [.command 0x0500000007] } = .next (after (.setz 7) built) :=
  ⟨⟨build_wf track identityWiring, nofun, fun _ => built_calibrated⟩, rfl⟩

theorem witness_EveryRequestIsAnswered :
    ({ block 0 0 [] with host := [.command 0] } : State).host ≠ [] := by decide

/-- The word placed at the command port runs as the next command. -/
theorem test_withFetchWord (s : State) :
    step (s.withFetchWord 40 0x0700000000) = exec .getz { s with mode := .ready, failCause := .none } := rfl

end Sys2Proof.Tests
end

-- The invariant of the block (10_state R33; 60_exceptions R243): every command and every reset keeps it.
section

namespace Sys2Proof.Machine

/-! ### A calibrated block stays calibrated -/

variable {s t : State}

/-- SAVE leaves LAST_SAVED alone or puts the registers' record there (44_persistence R225). -/
theorem State.save_lastSaved_cases (s : State) :
    s.save.lastSaved = s.lastSaved ∨ s.save.lastSaved = some s.record := by
  rcases State.save_cases s with ⟨_, h, _⟩ | ⟨_, _, _, _, h⟩ | ⟨_, _, _, _, _, h⟩
  · rw [h]; exact .inl rfl
  · rw [h]; exact .inr rfl
  · rw [h]; exact .inl rfl

/-- The registers hold only records that a later LOAD accepts, as long as TURNS is in its range. -/
theorem State.validRecord_record (h : turnsInRange s.turns = true) : validRecord s.record = true := by
  have hz : s.record.zero.toNat ≤ 127 := by
    have hlt := s.zero.isLt
    simp only [State.record, BitVec.toNat_setWidth]
    omega
  have ht : s.record.turns.toInt = s.turns := turnsWord_toInt s.turnNumber
  obtain ⟨hlo, hhi⟩ := (turnsInRange_iff _).mp h
  exact (validRecord_iff _).mpr ⟨hz, by rw [ht]; exact (turnsOf_spec s.turnNumber).1, by omega, by omega⟩

theorem State.Calibrated.table_eq (h : s.Calibrated) : s.table = build s.trackSpec s.pinOrder := by
  obtain ⟨_, _, _, _, htable, _⟩ := h
  exact htable

theorem State.Calibrated.raise (h : s.Calibrated) (e : Status) (d : Word32) : (s.raise e d).Calibrated := h

theorem State.Calibrated.respond (h : s.Calibrated) (w : Bool) (d : Word32) : (s.respond w d).Calibrated := h

theorem State.Calibrated.afterBusRead (h : s.Calibrated) : s.afterBusRead.Calibrated := h

theorem State.Calibrated.commitZero (h : s.Calibrated) (z : BitVec 7) : State.Calibrated { s with zero := z } := h

theorem State.Calibrated.commitLast (h : s.Calibrated) {p : Int} (hlo : -64 ≤ p) (hhi : p ≤ 63) :
    State.Calibrated { s with last := BitVec.ofInt 8 p } := by
  have hp : (BitVec.ofInt 8 p).toInt = p := toInt_ofInt8 (by omega) (by omega)
  obtain ⟨hturns, _, hrest⟩ := h
  exact ⟨hturns, by rw [hp]; exact ⟨hlo, hhi⟩, hrest⟩

theorem State.Calibrated.commitTurns (h : s.Calibrated) {t1 : Int} (hr : turnsInRange t1 = true)
    (hmul : t1 % 128 = 0) : State.Calibrated { s with turnNumber := turnNumberOf t1 } := by
  obtain ⟨hmin, hmax⟩ := (turnsInRange_iff t1).mp hr
  have ht : turnsOf (turnNumberOf t1) = t1 := turnsOf_turnNumberOf hmul (by omega) hmax
  obtain ⟨_, hrest⟩ := h
  exact ⟨(congrArg turnsInRange ht).trans hr, hrest⟩

theorem State.Calibrated.saveAndRespond (h : s.Calibrated) (d : Word32) : (s.saveAndRespond d).Calibrated := by
  obtain ⟨hturns, hlast, hpins, htrack, htable, hcause, hsaved⟩ := h
  have hsaved' : ∀ rec, s.save.lastSaved = some rec → validRecord rec = true := by
    intro rec hrec
    rcases State.save_lastSaved_cases s with hs | hs
    · exact hsaved rec (hs ▸ hrec)
    · rw [hs] at hrec
      cases hrec
      exact State.validRecord_record hturns
  exact ⟨by simpa using hturns, by simpa using hlast, by simpa using hpins, by simpa using htrack,
    by simpa using htable, by simpa using hcause, hsaved'⟩

/-- MPOS after its reading, with a signed position and a turn count that is a multiple of 128. -/
theorem State.Calibrated.accumulate (h : s.Calibrated) {p t1 : Int} (hlo : -64 ≤ p) (hhi : p ≤ 63)
    (hmul : t1 % 128 = 0) : (s.accumulate p t1).Calibrated := by
  rcases State.accumulate_cases s p t1 with ⟨_, ha⟩ | ⟨hr, _, ha⟩ | ⟨_, _, ha⟩
  · rw [ha]; exact h.raise _ _
  · rw [ha]; exact ((h.commitLast hlo hhi).commitTurns hr hmul).saveAndRespond _
  · rw [ha]; exact (h.commitLast hlo hhi).respond _ _

/-- SETABS after its reading. -/
theorem State.Calibrated.recalibrate (h : s.Calibrated) (target : Int) (raw : BitVec 7) :
    (s.recalibrate target raw).Calibrated := by
  obtain ⟨hlo, hhi, hmul, _⟩ := abs_spec target
  rcases State.recalibrate_cases s target raw with ⟨_, ha⟩ | ⟨hr, ha⟩
  · rw [ha]; exact h.raise _ _
  · rw [ha]; exact (((h.commitZero _).commitLast hlo hhi).commitTurns hr hmul).saveAndRespond 0

/-- The turn count after a reading is again a multiple of 128. -/
theorem State.rollover_turns_mod (s : State) (last p : Int) : rollover s.turns last p % 128 = 0 := by
  have h : s.turns % 128 = 0 := (turnsOf_spec s.turnNumber).1
  rcases rollover_cases s.turns last p with ⟨_, hr⟩ | ⟨_, hr⟩ | ⟨_, _, hr⟩ <;> rw [hr] <;> omega

theorem State.Calibrated.afterReading (h : s.Calibrated) (i : Instr) (raw : BitVec 7) :
    (afterReading i raw s).Calibrated := by
  cases i with
  | raw => exact h.respond _ _
  | upos => exact h.respond _ _
  | spos => exact h.respond _ _
  | mpos =>
    obtain ⟨hlo, hhi, _⟩ := sposOf_spec s.reverse s.zero raw
    exact h.accumulate hlo hhi (State.rollover_turns_mod s _ _)
  | setz value => exact h
  | setzc => exact (h.commitZero raw).saveAndRespond 0
  | getz => exact h
  | setabs target => exact h.recalibrate target raw

/-! ### No command writes MODE (10_state R31) -/

@[simp] theorem State.accumulate_mode (s : State) (p t1 : Int) : (s.accumulate p t1).mode = s.mode := by
  rcases State.accumulate_cases s p t1 with ⟨_, ha⟩ | ⟨_, _, ha⟩ | ⟨_, _, ha⟩ <;> simp [ha]

@[simp] theorem State.recalibrate_mode (s : State) (target : Int) (raw : BitVec 7) :
    (s.recalibrate target raw).mode = s.mode := by
  rcases State.recalibrate_cases s target raw with ⟨_, ha⟩ | ⟨_, ha⟩ <;> simp [ha]

@[simp] theorem afterReading_mode (i : Instr) (raw : BitVec 7) (s : State) :
    (afterReading i raw s).mode = s.mode := by
  cases i <;> simp [afterReading]

/-! ### Every step keeps the invariant -/

/-- Of a READY block the invariant asks no more than that it is calibrated: its TABLE is the one BUILD leaves. -/
theorem State.Calibrated.inv (h : s.Calibrated) (hm : s.mode = .ready) : s.Inv := by
  refine ⟨?_, ?_, fun _ => h⟩
  · rw [h.table_eq]; exact build_wf _ _
  · intro hf; rw [hm] at hf; cases hf

theorem State.Inv.calibrated (h : s.Inv) (hm : s.mode = .ready) : s.Calibrated := h.2.2 hm

/-- Reporting an error changes no field the invariant speaks of. -/
theorem State.Inv.raise (h : s.Inv) (e : Status) (d : Word32) : (s.raise e d).Inv := h

/-- Nor does taking a request from the command port. -/
theorem State.Inv.withHost (h : s.Inv) (host : List HostEvent) : State.Inv { s with host := host } := h

theorem exec_keeps_inv {i : Instr} (hs : s.Inv) (h : exec i s = .next t) : t.Inv := by
  rcases exec_cases h with ⟨_, rfl⟩ | ⟨hm, _, _, rfl⟩ | ⟨hm, _, p, _, _, rfl⟩ | ⟨hm, _, p, raw, _, _, rfl⟩ |
    ⟨hm, _, rfl⟩ | ⟨hm, value, _, rfl⟩
  case inl => exact hs.raise _ _
  all_goals have hc := hs.calibrated hm
  · exact (hc.afterBusRead.raise _ _).inv hm
  · exact (hc.afterBusRead.raise _ _).inv hm
  · exact (hc.afterBusRead.afterReading i raw).inv (by simpa using hm)
  · exact (hc.respond _ _).inv hm
  · exact ((hc.commitZero _).saveAndRespond 0).inv (by simpa using hm)

theorem runWord_keeps_inv {w : CommandWord} (hs : s.Inv) (h : s.runWord w = .next t) : t.Inv := by
  unfold State.runWord at h
  split at h
  · exact exec_keeps_inv hs h
  · rcases State.command_cases h with ⟨_, rfl⟩ | ⟨_, rfl⟩ <;> exact hs.raise _ _

/-- The registers a reset sequence leaves meet the invariant in any state that holds them together with the track and
the wiring it ran on, if TABLE was in its canonical form before (a malformed configuration keeps that TABLE). -/
theorem State.inv_of_boot {busAddr : Nat} {inputs : ConfigInputs} {a : BootAnswers} {r : Registers}
    (hpins : t.pinOrder = inputs.pinOrder)
    (hregs : t.registers = (boot t.trackSpec busAddr inputs a r).registers) (hwf : Memory.wf r.table = true) :
    t.Inv := by
  have hw := boot_table_wf t.trackSpec busAddr inputs a r hwf
  have hfailed := @boot_failed t.trackSpec busAddr inputs a r
  have hready := @boot_ready t.trackSpec busAddr inputs a r
  rw [← hregs] at hw hfailed hready
  refine ⟨hw, hfailed, fun hr => ?_⟩
  obtain ⟨bpins, btrack, btable, blast, bcause, bturns, bsaved⟩ := hready hr
  have hlast : t.last = 0 := blast
  refine ⟨bturns, ?_, hpins ▸ bpins, btrack, ?_, bcause, bsaved⟩
  · rw [hlast]; decide
  · rw [hpins]; exact btable

theorem State.Inv.runReset (hs : s.Inv) (inputs : ConfigInputs) : (s.runReset inputs).Inv := by
  have hregs : (s.runReset inputs).registers =
      (boot (s.runReset inputs).trackSpec s.busAddr inputs s.bootAnswers s.registers).registers := by
    rw [State.runReset_trackSpec]; rfl
  exact State.inv_of_boot rfl hregs hs.1

theorem step_keeps_inv (hs : s.Inv) (h : step s = .next t) : t.Inv := by
  cases hh : s.host with
  | nil => rw [step_idle hh] at h; cases h; exact hs
  | cons event rest =>
    cases event with
    | command w => rw [step_command hh] at h; exact runWord_keeps_inv (hs.withHost rest) h
    | reset inputs => rw [step_reset hh] at h; cases h; exact (hs.withHost rest).runReset inputs

/-- Settles O55: a step is idle, a command or a reset, and each keeps the invariant. -/
theorem everyStepKeepsTheInvariant : Obligations.EveryStepKeepsTheInvariant :=
  fun _ _ hs h => step_keeps_inv hs h

/-- Settles O54: the power-on reset is a reset sequence on an empty TABLE, which is in its canonical form. -/
theorem invariantHoldsAtReset : Obligations.InvariantHoldsAtReset :=
  State.inv_of_boot (busAddr := Config.busAddr) (inputs := Config.inputs) rfl rfl rfl

end Sys2Proof.Machine
end

-- What BUILD leaves in TABLE (40_table_builder R101 to R105), and the ranges of a READY block (10_state R33).
section

namespace Sys2Proof.Machine

/-! ### The bits of a pattern -/

/-- The track bit that BUILD puts into a pattern of position `pos` for a pin of this phase (40_table_builder R101). -/
def phaseBit (track : Vector Byte 16) (pos : Nat) (phase : BitVec 4) : Bool :=
  decide (track[trackOffset pos phase] &&& trackMask pos ≠ 0)

/-- Setting the bits of those pins of a list that are high sets these and no others. -/
theorem getLsbD_foldl_setBit (high : Fin 8 → Prop) [DecidablePred high] (pins : List (Fin 8)) (index : Byte)
    (pin : Fin 8) :
    (pins.foldl (fun index pin => if high pin then index ||| (1#8 <<< pin.val) else index) index).getLsbD pin.val =
      (index.getLsbD pin.val || decide (pin ∈ pins ∧ high pin)) := by
  have hbit : ∀ p q : Fin 8, (1#8 <<< p.val).getLsbD q.val = decide (q = p) := by decide
  induction pins generalizing index with
  | nil => simp
  | cons p pins ih =>
    rw [List.foldl_cons, ih]
    by_cases hp : high p
    · rw [if_pos hp, BitVec.getLsbD_or, hbit]
      by_cases hq : pin = p
      · simp [hq, hp]
      · simp [hq]
    · rw [if_neg hp]
      by_cases hq : pin = p
      · simp [hq, hp]
      · simp [hq]

/-- Each pin of a pattern reads its own phase of the track. -/
theorem pattern_getLsbD (track : Vector Byte 16) (order : Vector (BitVec 4) 8) (pos : Nat) (pin : Fin 8) :
    (pattern track order pos).getLsbD pin.val = phaseBit track pos order[pin] := by
  unfold pattern
  rw [getLsbD_foldl_setBit (fun pin => track[trackOffset pos order[pin]] &&& trackMask pos ≠ 0)]
  simp [phaseBit]

/-! ### The wiring permutes the pins -/

/-- A legal PIN_ORDER uses every phase: eight different values in 1..8 (40_table_builder R103). -/
theorem exists_pin_of_legalPinOrder {order : Vector (BitVec 4) 8} (h : legalPinOrder order = true) {phase : BitVec 4}
    (hphase : phase ∈ identityWiring.toList) : ∃ pin : Fin 8, order[pin] = phase := by
  simp only [legalPinOrder, Bool.and_eq_true, List.all_eq_true, decide_eq_true_eq] at h
  obtain ⟨hrange, hnodup⟩ := h
  have hvalues : ∀ v : BitVec 4, 1 ≤ v.toNat ∧ v.toNat ≤ 8 → v ∈ identityWiring.toList := by decide
  have hperm : order.toList.Perm identityWiring.toList :=
    (List.subperm_of_subset hnodup fun v hv => hvalues v (hrange v hv)).perm_of_length_le (by simp)
  obtain ⟨k, hk, hget⟩ := List.mem_iff_getElem.mp (hperm.mem_iff.mpr hphase)
  exact ⟨⟨k, by simpa using hk⟩, by simpa using hget⟩

/-- Positions that a legal wiring does not tell apart, the identity wiring does not either: a legal wiring only permutes
the pins (40_table_builder R104). -/
theorem pattern_identity_eq_of_eq {track : Vector Byte 16} {order : Vector (BitVec 4) 8} {pos pos' : Nat}
    (ho : legalPinOrder order = true) (h : pattern track order pos = pattern track order pos') :
    pattern track identityWiring pos = pattern track identityWiring pos' := by
  refine BitVec.eq_of_getLsbD_eq fun k hk => ?_
  obtain ⟨pin, hpin⟩ := exists_pin_of_legalPinOrder ho (phase := identityWiring[(⟨k, hk⟩ : Fin 8)]) (by simp)
  calc (pattern track identityWiring pos).getLsbD k
      = phaseBit track pos identityWiring[(⟨k, hk⟩ : Fin 8)] := pattern_getLsbD track identityWiring pos ⟨k, hk⟩
    _ = (pattern track order pos).getLsbD pin.val := by rw [pattern_getLsbD, hpin]
    _ = (pattern track order pos').getLsbD pin.val := by rw [h]
    _ = phaseBit track pos' identityWiring[(⟨k, hk⟩ : Fin 8)] := by rw [pattern_getLsbD, hpin]
    _ = (pattern track identityWiring pos').getLsbD k := (pattern_getLsbD track identityWiring pos' ⟨k, hk⟩).symm

/-- Under a legal track and wiring no two positions have the same pattern. -/
theorem pattern_injective {track : Vector Byte 16} {order : Vector (BitVec 4) 8} (ht : legalTrack track = true)
    (ho : legalPinOrder order = true) {pos pos' : Nat} (hpos : pos < 128) (hpos' : pos' < 128)
    (h : pattern track order pos = pattern track order pos') : pos = pos' := by
  unfold legalTrack at ht
  exact List.inj_on_of_nodup_map (of_decide_eq_true ht) (List.mem_range.mpr hpos) (List.mem_range.mpr hpos')
    (pattern_identity_eq_of_eq ho h)

/-! ### What BUILD leaves at an address -/

/-- TABLE after the first `n` positions of BUILD. -/
def buildUpTo (track : Vector Byte 16) (order : Vector (BitVec 4) 8) : Nat → Memory
  | 0 => []
  | n + 1 => (buildUpTo track order n).write (pattern track order n).toNat (BitVec.ofNat 8 n)

theorem buildUpTo_eq_foldl (track : Vector Byte 16) (order : Vector (BitVec 4) 8) (n : Nat) :
    buildUpTo track order n =
      (List.range n).foldl (fun (table : Memory) pos => table.write (pattern track order pos).toNat (BitVec.ofNat 8 pos)) [] := by
  induction n with
  | zero => rfl
  | succ n ih => rw [List.range_succ, List.foldl_append, ← ih]; rfl

theorem build_eq_buildUpTo (track : Vector Byte 16) (order : Vector (BitVec 4) 8) :
    build track order = buildUpTo track order 128 := by
  rw [buildUpTo_eq_foldl]; unfold build; rfl

theorem buildUpTo_wf (track : Vector Byte 16) (order : Vector (BitVec 4) 8) (n : Nat) :
    (buildUpTo track order n).wf = true := by
  induction n with
  | zero => rfl
  | succ n ih => exact Memory.write_wf ih _ _

/-- An entry is a position with that pattern, or the sentinel where no position has it. -/
theorem buildUpTo_read_cases (track : Vector Byte 16) (order : Vector (BitVec 4) 8) (n : Nat) (p : Byte) :
    (∃ pos, pos < n ∧ pattern track order pos = p ∧ (buildUpTo track order n).read p.toNat = BitVec.ofNat 8 pos) ∨
    ((∀ pos, pos < n → pattern track order pos ≠ p) ∧ (buildUpTo track order n).read p.toNat = 255) := by
  induction n with
  | zero => exact .inr ⟨nofun, rfl⟩
  | succ n ih =>
    by_cases hn : pattern track order n = p
    · exact .inl ⟨n, n.lt_succ_self, hn, hn ▸ Memory.read_write_same (buildUpTo_wf track order n) _ _⟩
    · have hread : (buildUpTo track order (n + 1)).read p.toNat = (buildUpTo track order n).read p.toNat :=
        Memory.read_write_ne _ _ fun hp => hn (BitVec.eq_of_toNat_eq hp.symm)
      rw [hread]
      rcases ih with ⟨pos, hpos, hp, hv⟩ | ⟨hne, hv⟩
      · exact .inl ⟨pos, Nat.lt_succ_of_lt hpos, hp, hv⟩
      · refine .inr ⟨fun pos hpos => ?_, hv⟩
        rcases Nat.lt_succ_iff_lt_or_eq.mp hpos with hlt | rfl
        · exact hne pos hlt
        · exact hn

theorem build_read_cases (track : Vector Byte 16) (order : Vector (BitVec 4) 8) (p : Byte) :
    (∃ pos, pos < 128 ∧ pattern track order pos = p ∧ (build track order).read p.toNat = BitVec.ofNat 8 pos) ∨
    ((∀ pos, pos < 128 → pattern track order pos ≠ p) ∧ (build track order).read p.toNat = 255) := by
  rw [build_eq_buildUpTo]
  exact buildUpTo_read_cases track order 128 p

theorem ofNat8_toNat_of_lt {pos : Nat} (h : pos < 128) : (BitVec.ofNat 8 pos).toNat = pos := by
  rw [BitVec.toNat_ofNat]; omega

/-- No entry of a built TABLE lies in 128..254. -/
theorem build_read_range (track : Vector Byte 16) (order : Vector (BitVec 4) 8) (p : Byte) :
    (build track order).read p.toNat = 255 ∨ ((build track order).read p.toNat).toNat < 128 := by
  rcases build_read_cases track order p with ⟨pos, hpos, _, hv⟩ | ⟨_, hv⟩
  · exact .inr (by rw [hv, ofNat8_toNat_of_lt hpos]; exact hpos)
  · exact .inl hv

/-- An entry that holds a position is the one at that position's pattern. -/
theorem pattern_eq_of_build_read {track : Vector Byte 16} {order : Vector (BitVec 4) 8} {p : Byte} {pos : Nat}
    (hpos : pos < 128) (h : (build track order).read p.toNat = BitVec.ofNat 8 pos) : pattern track order pos = p := by
  have hnat : ((build track order).read p.toNat).toNat = pos := by rw [h, ofNat8_toNat_of_lt hpos]
  rcases build_read_cases track order p with ⟨pos', hpos', hp, hv⟩ | ⟨_, hv⟩
  · rw [hv, ofNat8_toNat_of_lt hpos'] at hnat
    exact hnat ▸ hp
  · rw [hv] at hnat
    have : (255 : Byte).toNat = 255 := rfl
    omega

/-- Under a legal track and wiring BUILD keeps every position at its pattern: no later position overwrites it. -/
theorem build_read_pattern {track : Vector Byte 16} {order : Vector (BitVec 4) 8} (ht : legalTrack track = true)
    (ho : legalPinOrder order = true) {pos : Nat} (hpos : pos < 128) :
    (build track order).read (pattern track order pos).toNat = BitVec.ofNat 8 pos := by
  rcases build_read_cases track order (pattern track order pos) with ⟨pos', hpos', hp, hv⟩ | ⟨hne, _⟩
  · rw [hv, pattern_injective ht ho hpos' hpos hp]
  · exact absurd rfl (hne pos hpos)

/-- TABLE holds each position in exactly one entry (40_table_builder R105). -/
theorem build_existsUnique {track : Vector Byte 16} {order : Vector (BitVec 4) 8} (ht : legalTrack track = true)
    (ho : legalPinOrder order = true) {pos : Nat} (hpos : pos < 128) :
    ∃! p : Byte, (build track order).read p.toNat = BitVec.ofNat 8 pos :=
  ⟨pattern track order pos, build_read_pattern ht ho hpos, fun _ hp => (pattern_eq_of_build_read hpos hp).symm⟩

/-! ### The ranges of a READY block -/

/-- Settles O56: the invariant makes a READY block calibrated, so its TABLE is BUILD's over a legal configuration. -/
theorem readyStatesMeetTheRanges : Obligations.ReadyStatesMeetTheRanges := by
  intro s hs hm
  have htable := (hs.calibrated hm).table_eq
  obtain ⟨hturns, ⟨hlo, hhi⟩, hpins, htrack, _⟩ := hs.calibrated hm
  obtain ⟨hmin, hmax⟩ := (turnsInRange_iff _).mp hturns
  have hzero : s.zero.toNat ≤ 127 := Nat.le_of_lt_succ s.zero.isLt
  have hmul : s.turns % 128 = 0 := (turnsOf_spec s.turnNumber).1
  unfold State.readTable
  rw [htable]
  exact ⟨hzero, hmul, hmin, hmax, hlo, hhi, fun pos hpos => build_existsUnique htrack hpins hpos,
    build_read_range s.trackSpec s.pinOrder⟩

end Sys2Proof.Machine
end

-- The requests each command makes on its ports (20_memory R52, R58).
section

namespace Sys2Proof.Machine

/-- From requests `before` the block went on to `t` with no further request, or with one StoreSave, of the record that
`t` holds (44_persistence R224). -/
def State.AsksAtMostOneSave (before : List Request) (t : State) : Prop :=
  t.requests = before ∨ t.requests = before ++ [.storeSave t.record]

/-- SAVE asks for the record the command has just committed, and answering does not change that record. -/
theorem State.saveAndRespond_asksAtMostOneSave (s : State) (d : Word32) :
    (s.saveAndRespond d).AsksAtMostOneSave s.requests := by
  unfold State.AsksAtMostOneSave
  rw [State.saveAndRespond_requests, State.saveAndRespond_record]
  rcases State.save_cases s with ⟨_, h, _⟩ | ⟨_, _, _, _, h⟩ | ⟨_, _, _, _, _, h⟩
  · rw [h]; exact .inl rfl
  · rw [h]; exact .inr rfl
  · rw [h]; exact .inr rfl

/-- Of the three endings of MPOS only the counted rollover runs SAVE (42_multiturn R167). -/
theorem State.accumulate_asksAtMostOneSave (s : State) (p t1 : Int) :
    (s.accumulate p t1).AsksAtMostOneSave s.requests := by
  rcases State.accumulate_cases s p t1 with ⟨_, h⟩ | ⟨_, _, h⟩ | ⟨_, _, h⟩
  · rw [h]; exact .inl rfl
  · rw [h]; exact State.saveAndRespond_asksAtMostOneSave _ _
  · rw [h]; exact .inl rfl

/-- Of the two endings of SETABS only the commit runs SAVE (43_calibration R186, R187). -/
theorem State.recalibrate_asksAtMostOneSave (s : State) (target : Int) (raw : BitVec 7) :
    (s.recalibrate target raw).AsksAtMostOneSave s.requests := by
  rcases State.recalibrate_cases s target raw with ⟨_, h⟩ | ⟨_, h⟩
  · rw [h]; exact .inl rfl
  · rw [h]; exact State.saveAndRespond_asksAtMostOneSave _ _

theorem afterReading_asksAtMostOneSave (i : Instr) (raw : BitVec 7) (s : State) :
    (afterReading i raw s).AsksAtMostOneSave s.requests := by
  cases i with
  | raw => exact .inl rfl
  | upos => exact .inl rfl
  | spos => exact .inl rfl
  | mpos => exact State.accumulate_asksAtMostOneSave s _ _
  | setz value => exact .inl rfl
  | setzc => exact State.saveAndRespond_asksAtMostOneSave _ 0
  | getz => exact .inl rfl
  | setabs target => exact State.recalibrate_asksAtMostOneSave s target raw

/-- After its reading a command that may not save makes no request at all. -/
theorem afterReading_requests_of_not_maySave {i : Instr} (h : maySave i = false) (raw : BitVec 7) (s : State) :
    (afterReading i raw s).requests = s.requests := by
  cases i with
  | raw => rfl
  | upos => rfl
  | spos => rfl
  | getz => rfl
  | mpos => cases h
  | setz value => cases h
  | setzc => cases h
  | setabs target => cases h

/-- The bus reads R58 gives a command on a READY block. -/
def State.busReadsOf (s : State) (i : Instr) : List Request :=
  if readsEncoder i then [.busRead s.busAddr] else []

theorem State.afterBusRead_requests_of_readsEncoder {i : Instr} (s : State) (h : readsEncoder i = true) :
    s.afterBusRead.requests = s.requests ++ s.busReadsOf i := by
  rw [State.busReadsOf, if_pos h, State.afterBusRead_requests]

theorem State.requests_of_not_readsEncoder {i : Instr} (s : State) (h : readsEncoder i = false) :
    s.requests = s.requests ++ s.busReadsOf i := by
  rw [State.busReadsOf, h, if_neg (by decide), List.append_nil]

/-- The requests of R58's table, in the order of R62: the bus read before the save. -/
theorem exec_requests_cases {s t : State} {i : Instr} (hready : s.mode = .ready) (h : exec i s = .next t) :
    t.requests = s.requests ++ s.busReadsOf i ∨
    (maySave i = true ∧ t.requests = s.requests ++ s.busReadsOf i ++ [.storeSave t.record]) := by
  rcases exec_cases h with ⟨hfailed, _⟩ | ⟨_, hreads, _, rfl⟩ | ⟨_, hreads, p, _, _, rfl⟩ |
    ⟨_, hreads, p, raw, _, _, rfl⟩ | ⟨_, rfl, rfl⟩ | ⟨_, value, rfl, rfl⟩
  · rw [hready] at hfailed; cases hfailed
  · exact .inl (s.afterBusRead_requests_of_readsEncoder hreads)
  · exact .inl (s.afterBusRead_requests_of_readsEncoder hreads)
  · rw [← s.afterBusRead_requests_of_readsEncoder hreads]
    cases hsave : maySave i with
    | false => exact .inl (afterReading_requests_of_not_maySave hsave raw _)
    | true => exact (afterReading_asksAtMostOneSave i raw _).imp_right fun hs => ⟨rfl, hs⟩
  · exact .inl (s.requests_of_not_readsEncoder rfl)
  · rw [← s.requests_of_not_readsEncoder rfl]
    exact (State.saveAndRespond_asksAtMostOneSave _ 0).imp_right fun hs => ⟨rfl, hs⟩

/-- Settles O47: what a command asks of the store is nothing or the one StoreSave, after the bus read it makes. -/
theorem requestsOfEachCommand : Obligations.RequestsOfEachCommand := by
  intro s t i hready h
  rcases exec_requests_cases hready h with hnone | ⟨hsave, hone⟩
  · exact ⟨[], by rw [List.append_nil]; exact hnone, .inl rfl⟩
  · exact ⟨[.storeSave t.record], hone, .inr ⟨hsave, rfl⟩⟩

end Sys2Proof.Machine
end

-- The command word (30_encoding R71 to R74, R78, R79): its two fields, what the decoder answers, and the encoder as its
-- inverse.
section

namespace Sys2Proof

/-! ### The two fields of a word (30_encoding R71) -/

theorem opcField_toNat (w : CommandWord) : (opcField w).toNat = w.toNat / 2 ^ 32 := by
  have hw : w.toNat < 2 ^ 40 := w.isLt
  unfold opcField
  rw [BitVec.extractLsb'_toNat, Nat.shiftRight_eq_div_pow]
  omega

theorem opndField_toNat (w : CommandWord) : (opndField w).toNat = w.toNat % 2 ^ 32 := by
  unfold opndField
  rw [BitVec.extractLsb'_toNat, Nat.shiftRight_zero]

theorem opcField_append_opndField (w : CommandWord) : opcField w ++ opndField w = w := by
  apply BitVec.eq_of_toNat_eq
  rw [BitVec.toNat_append, ← Nat.shiftLeft_add_eq_or_of_lt (opndField w).isLt, Nat.shiftLeft_eq, opcField_toNat,
    opndField_toNat]
  omega

/-! ### The operand forms (30_encoding R72) -/

/-- The commands of form N, which take no operand. -/
def Instr.isFormN : Instr → Bool
  | .raw => true
  | .upos => true
  | .spos => true
  | .mpos => true
  | .setz _ => false
  | .setzc => true
  | .getz => true
  | .setabs _ => false

theorem Instr.wf_of_isFormN {i : Instr} (h : i.isFormN = true) : i.wf = true := by
  cases i with
  | setz value => cases h
  | setabs target => cases h
  | _ => rfl

theorem Instr.operand_of_isFormN {i : Instr} (h : i.isFormN = true) : i.operand = 0 := by
  cases i with
  | setz value => cases h
  | setabs target => cases h
  | _ => rfl

/-- Form N has the opcodes 0x01..0x08 without those of SETZ and SETABS (30_encoding R73). -/
theorem Instr.opcode_of_isFormN {i : Instr} (h : i.isFormN = true) :
    1 ≤ i.opcode.toNat ∧ i.opcode.toNat < 9 ∧ i.opcode.toNat ≠ 5 ∧ i.opcode.toNat ≠ 8 := by
  cases i with
  | setz value => cases h
  | setabs target => cases h
  | _ => decide

theorem decodeFormN_cases (i : Instr) (d : Word32) :
    (d = 0 ∧ decodeFormN i d = .ok i) ∨ (d ≠ 0 ∧ decodeFormN i d = .error .operandBits) := by
  unfold decodeFormN
  split
  case isTrue h => exact .inl ⟨h, rfl⟩
  case isFalse h => exact .inr ⟨h, rfl⟩

/-- The must-be-zero bits of form B are those above the byte. -/
theorem highBits_eq_zero_iff (d : Word32) : d.extractLsb' 8 24 = 0 ↔ d.toNat < 256 := by
  have hd : d.toNat < 2 ^ 32 := d.isLt
  have hzero : (0 : BitVec 24).toNat = 0 := rfl
  rw [← BitVec.toNat_inj, BitVec.extractLsb'_toNat, Nat.shiftRight_eq_div_pow, hzero]
  omega

theorem lowByte_toNat_of_lt {d : Word32} (h : d.toNat < 256) : (d.extractLsb' 0 8).toNat = d.toNat := by
  rw [BitVec.extractLsb'_toNat, Nat.shiftRight_zero]
  exact Nat.mod_eq_of_lt h

/-- Form B takes exactly the operands that a byte spells. -/
theorem decodeFormB_cases (mk : Nat → Instr) (d : Word32) :
    (d.toNat < 256 ∧ decodeFormB mk d = .ok (mk d.toNat)) ∨
    (256 ≤ d.toNat ∧ decodeFormB mk d = .error .operandBits) := by
  unfold decodeFormB
  split
  case isTrue h =>
    have hd : d.toNat < 256 := (highBits_eq_zero_iff d).mp h
    exact .inl ⟨hd, by rw [lowByte_toNat_of_lt hd]⟩
  case isFalse h => exact .inr ⟨Nat.le_of_not_lt fun hd => h ((highBits_eq_zero_iff d).mpr hd), rfl⟩

/-! ### The decoder (30_encoding R73, R74, R78) -/

/-- The decoder by operand form: the opcode chooses a command of form N, SETZ, SETABS, or nothing. -/
theorem decode_cases (w : CommandWord) :
    (∃ i : Instr, i.isFormN = true ∧ opcField w = i.opcode ∧ decode w = decodeFormN i (opndField w)) ∨
    (opcField w = 5 ∧ decode w = decodeFormB .setz (opndField w)) ∨
    (opcField w = 8 ∧ decode w = decodeFormT .setabs (opndField w)) ∨
    (((opcField w).toNat = 0 ∨ 9 ≤ (opcField w).toNat) ∧ decode w = .error (.reservedOpcode (opcField w))) := by
  unfold decode
  split
  case h_1 h => exact .inl ⟨.raw, rfl, BitVec.eq_of_toNat_eq h, rfl⟩
  case h_2 h => exact .inl ⟨.upos, rfl, BitVec.eq_of_toNat_eq h, rfl⟩
  case h_3 h => exact .inl ⟨.spos, rfl, BitVec.eq_of_toNat_eq h, rfl⟩
  case h_4 h => exact .inl ⟨.mpos, rfl, BitVec.eq_of_toNat_eq h, rfl⟩
  case h_5 h => exact .inr (.inl ⟨BitVec.eq_of_toNat_eq h, rfl⟩)
  case h_6 h => exact .inl ⟨.setzc, rfl, BitVec.eq_of_toNat_eq h, rfl⟩
  case h_7 h => exact .inl ⟨.getz, rfl, BitVec.eq_of_toNat_eq h, rfl⟩
  case h_8 h => exact .inr (.inr (.inl ⟨BitVec.eq_of_toNat_eq h, rfl⟩))
  case h_9 h1 h2 h3 h4 h5 h6 h7 h8 =>
    rw [imp_false] at h1 h2 h3 h4 h5 h6 h7 h8
    exact .inr (.inr (.inr ⟨by omega, rfl⟩))

/-- The decoder on a word with a command's two fields. -/
theorem decode_of_fields {w : CommandWord} {i : Instr} (hwf : i.wf = true) (hopc : opcField w = i.opcode)
    (hopnd : opndField w = i.operand) : decode w = .ok i := by
  unfold decode
  rw [hopc, hopnd]
  cases i with
  | raw => rfl
  | upos => rfl
  | spos => rfl
  | mpos => rfl
  | setz value =>
    have hv : value < 256 := of_decide_eq_true hwf
    have hd : (BitVec.ofNat 32 value).toNat = value := by rw [BitVec.toNat_ofNat]; omega
    rcases decodeFormB_cases .setz (BitVec.ofNat 32 value) with ⟨_, h⟩ | ⟨hge, _⟩
    · exact h.trans (by rw [hd])
    · omega
  | setzc => rfl
  | getz => rfl
  | setabs target =>
    obtain ⟨hlo, hhi⟩ := of_decide_eq_true hwf
    exact congrArg (fun t => Except.ok (Instr.setabs t)) (Machine.toInt_ofInt32 hlo hhi)

/-- What a word that decodes is made of. -/
theorem fields_of_decode {w : CommandWord} {i : Instr} (h : decode w = .ok i) :
    i.wf = true ∧ opcField w = i.opcode ∧ opndField w = i.operand := by
  rcases decode_cases w with ⟨j, hj, hopc, hdec⟩ | ⟨hopc, hdec⟩ | ⟨hopc, hdec⟩ | ⟨_, hdec⟩ <;> rw [hdec] at h
  · rcases decodeFormN_cases j (opndField w) with ⟨hd, hform⟩ | ⟨_, hform⟩ <;> rw [hform] at h <;> cases h
    exact ⟨Instr.wf_of_isFormN hj, hopc, hd.trans (Instr.operand_of_isFormN hj).symm⟩
  · rcases decodeFormB_cases .setz (opndField w) with ⟨hd, hform⟩ | ⟨_, hform⟩ <;> rw [hform] at h <;> cases h
    exact ⟨decide_eq_true hd, hopc, by rw [Instr.operand, BitVec.ofNat_toNat, BitVec.setWidth_eq]⟩
  · cases h
    have hlo := BitVec.le_two_mul_toInt (x := opndField w)
    have hhi := BitVec.two_mul_toInt_lt (x := opndField w)
    exact ⟨decide_eq_true (by omega), hopc, BitVec.ofInt_toInt.symm⟩
  · cases h

/-- Decoding and encoding are inverse to each other between the words that decode and the well-formed commands. -/
theorem decode_eq_ok_iff {w : CommandWord} {i : Instr} : decode w = .ok i ↔ i.wf = true ∧ encode i = w := by
  constructor
  · intro h
    obtain ⟨hwf, hopc, hopnd⟩ := fields_of_decode h
    exact ⟨hwf, by rw [encode, ← hopc, ← hopnd, opcField_append_opndField]⟩
  · rintro ⟨hwf, rfl⟩
    obtain ⟨hopc, hopnd⟩ := Laws.EncodedFields.of_append i.opcode i.operand
    exact decode_of_fields hwf hopc hopnd

/-- Settles O1: the fields of an encoded command are its opcode and its operand, which the decoder reads back. -/
theorem decodeEncodeRoundTrip : Obligations.DecodeEncodeRoundTrip :=
  fun _ hwf => decode_eq_ok_iff.mpr ⟨hwf, rfl⟩

/-- Settles O2: a word is put together from its fields, and a word that decodes has those of its command. -/
theorem decodedWordIsItsEncoding : Obligations.DecodedWordIsItsEncoding :=
  fun _ _ h => decode_eq_ok_iff.mp h

/-- Settles O3: each operand form rejects its must-be-zero bits (form T has none), and the opcodes outside 0x01..0x08
are rejected whatever the operand. -/
theorem illegalWordsExactly : Obligations.IllegalWordsExactly := by
  intro w
  have hopcNat := opcField_toNat w
  have hopndNat := opndField_toNat w
  rw [← hopcNat, ← hopndNat]
  rcases decode_cases w with ⟨j, hj, hopc, hdec⟩ | ⟨hopc, hdec⟩ | ⟨hopc, hdec⟩ | ⟨hres, hdec⟩ <;> rw [hdec]
  · obtain ⟨hpos, hlt, hne5, hne8⟩ := Instr.opcode_of_isFormN hj
    rcases decodeFormN_cases j (opndField w) with ⟨hd, hform⟩ | ⟨hd, hform⟩ <;> rw [hform, hopc]
    · have : (opndField w).toNat = 0 := by rw [hd]; rfl
      exact iff_of_false nofun (by omega)
    · have : (opndField w).toNat ≠ 0 := fun h0 => hd (BitVec.eq_of_toNat_eq h0)
      exact iff_of_true ⟨_, rfl⟩ (by omega)
  · have h5 : (opcField w).toNat = 5 := by rw [hopc]; rfl
    rcases decodeFormB_cases .setz (opndField w) with ⟨hd, hform⟩ | ⟨hd, hform⟩ <;> rw [hform]
    · exact iff_of_false nofun (by omega)
    · exact iff_of_true ⟨_, rfl⟩ (by omega)
  · have h8 : (opcField w).toNat = 8 := by rw [hopc]; rfl
    exact iff_of_false nofun (by omega)
  · exact iff_of_true ⟨_, rfl⟩ (.inl hres)

/-- Settles O4: each word is the encoding of its command, so the round trip gives the decoding. -/
theorem sampleWordsDecode : Obligations.SampleWordsDecode := by
  refine ⟨?_, ?_, ?_, ?_, ?_, ?_, ?_, ?_, ?_⟩ <;> exact decode_eq_ok_iff.mpr ⟨by decide, by decide⟩

end Sys2Proof

namespace Sys2Proof.Machine

/-! ### The assembler (30_encoding R79) -/

theorem assemble_eq_word_iff {line : List Char} {w : CommandWord} :
    assemble line = .word w ↔ ∃ i, asmInstr (asmWords line) = some i ∧ i.wf = true ∧ encode i = w := by
  unfold assemble
  cases asmWords line with
  | nil => exact iff_of_false nofun nofun
  | cons v vs =>
    dsimp only
    cases asmInstr (v :: vs) with
    | none => exact iff_of_false nofun nofun
    | some i => cases hwf : i.wf <;> simp [hwf]

/-- Settles O6: the assembler encodes the commands in range, which are those that some word decodes to. -/
theorem assembledWordDecodes : Obligations.AssembledWordDecodes := by
  intro line w
  simp only [assemble_eq_word_iff, decode_eq_ok_iff]

/-! ### A word at the command port (30_encoding R78) -/

theorem State.runWord_of_ok {s : State} {w : CommandWord} {i : Instr} (h : decode w = .ok i) :
    s.runWord w = exec i s := by
  rw [State.runWord, h]

theorem State.runWord_of_error {s : State} {w : CommandWord} {e : Illegal} (h : decode w = .error e) :
    s.runWord w = s.illegalCommand := by
  rw [State.runWord, h]

/-- Settles O7: the step takes the word from the port, and the word runs as what it decodes to. -/
theorem stepRunsDecodedCommand : Obligations.StepRunsDecodedCommand := by
  intro s w rest i hhost hdec
  rw [step_command hhost, State.runWord_of_ok hdec]

/-- Settles O8: on a READY block an illegal word raises ILLEGAL_COMMAND, which changes the response alone. -/
theorem illegalWordChangesNothing : Obligations.IllegalWordChangesNothing := by
  intro s w rest e hhost hready hdec
  rw [step_command hhost, State.runWord_of_error hdec]
  exact State.command_ready (s := { s with host := rest }) hready _

end Sys2Proof.Machine
end

-- The response (30_encoding R75, R76): the layout of its word, and what DATA holds.
section

namespace Sys2Proof.Machine

/-! ### The response word (30_encoding R75) -/

/-- The fields of a response word, each at its place value. -/
theorem Response.word_toNat (r : Response) :
    r.word.toNat = (r.status.code.toNat * 2 + r.warn.toNat) * 2 ^ 32 + r.data.toNat := by
  unfold Response.word
  rw [BitVec.toNat_append, ← Nat.shiftLeft_add_eq_or_of_lt r.data.isLt, BitVec.toNat_append,
    ← Nat.shiftLeft_add_eq_or_of_lt (BitVec.ofBool r.warn).isLt, Nat.shiftLeft_eq, Nat.shiftLeft_eq,
    BitVec.toNat_ofBool, pow_one]

/-- Settles O5: each field of the word reads back from its place value. -/
theorem responseWordLayout : Obligations.ResponseWordLayout := by
  intro r
  have hdata : r.data.toNat < 2 ^ 32 := r.data.isLt
  have hwarn : r.warn.toNat = if r.warn then 1 else 0 := by cases r.warn <;> rfl
  have hbit : r.warn.toNat < 2 := r.warn.toNat_lt
  have hcode : r.word.toNat / 2 ^ 33 = r.status.code.toNat := by rw [Response.word_toNat]; omega
  rw [hcode, Response.word_toNat, ← hwarn]
  refine ⟨?_, by omega, by omega⟩
  cases r.status <;> rfl

/-! ### DATA (30_encoding R76) -/

/-- Settles O20: a command that reads the encoder ends in its reading when that hits the sentinel. -/
theorem sentinelEndsTheCommand : Obligations.SentinelEndsTheCommand := by
  intro s i p hready hreads hp hsentinel
  rw [exec_of_readsEncoder s hreads, State.command_ready hready, State.withRaw_of_sentinel hp hsentinel]
  rfl

/-- A command that reads the encoder and answers OK did what it does with a valid reading. -/
theorem exec_ok_of_readsEncoder {s t : State} {i : Instr} {r : Response} (hreads : readsEncoder i = true)
    (h : exec i s = .next t) (hr : t.response = some r) (hok : r.status = .ok) :
    ∃ raw, t = afterReading i raw s.afterBusRead := by
  rw [exec_of_readsEncoder s hreads] at h
  obtain ⟨_, hbody⟩ := State.command_ok h hr hok
  obtain ⟨_, raw, _, _, ht⟩ := State.withRaw_ok hbody hr hok
  exact ⟨raw, ht⟩

/-- The response of a state that ended its command with `respond`. -/
theorem State.data_of_respond {s : State} {w : Bool} {d : Word32} {r : Response}
    (hr : (s.respond w d).response = some r) : r.data = d := by
  rw [State.respond_response] at hr
  cases hr
  rfl

/-- A 7-bit position answered as DATA lies in 0..127. -/
theorem toNat_zext_position (z : BitVec 7) : (z.setWidth 32).toNat ≤ 127 := by
  have hz := z.isLt
  rw [BitVec.toNat_setWidth]
  omega

/-- Settles O21: RAW and GETZ answer a 7-bit register or table entry, UPOS and SPOS a value in its range by
construction. -/
theorem positionsStayInRange : Obligations.PositionsStayInRange := by
  intro s t r hr hok
  refine ⟨?_, fun h => ?spos⟩
  · rintro (h | h | h)
    case inl =>
      obtain ⟨raw, rfl⟩ := exec_ok_of_readsEncoder rfl h hr hok
      rw [State.data_of_respond hr]
      exact toNat_zext_position raw
    case inr.inl =>
      obtain ⟨raw, rfl⟩ := exec_ok_of_readsEncoder rfl h hr hok
      obtain ⟨hle, _⟩ := uposOf_spec s.reverse s.zero raw
      rw [State.data_of_respond hr, State.afterBusRead_upos, State.upos, BitVec.toNat_ofNat]
      omega
    case inr.inr =>
      rw [exec_getz] at h
      obtain ⟨_, rfl⟩ := State.command_ok h hr hok
      rw [State.data_of_respond hr]
      exact toNat_zext_position s.zero
  case spos =>
    obtain ⟨raw, rfl⟩ := exec_ok_of_readsEncoder rfl h hr hok
    obtain ⟨hlo, hhi, _⟩ := sposOf_spec s.reverse s.zero raw
    rw [State.data_of_respond hr, State.afterBusRead_spos, State.spos, toInt_ofInt32 (by omega) (by omega)]
    exact ⟨hlo, hhi⟩

end Sys2Proof.Machine
end

-- The table builder (40_table_builder): the closed form of BUILD, the whole of TABLE, and the two ways to be refused:
-- a failed bus read (R108) and a malformed configuration (R103, R104).
section

namespace Sys2Proof.Machine

/-! ### The closed form of BUILD (40_table_builder R102) -/

/-- The mask of a position is one bit, the most significant bit of a byte first. -/
theorem trackMask_eq_twoPow (pos : Nat) : trackMask pos = BitVec.twoPow 8 (7 - pos % 8) := by
  have hbit : ∀ n : Fin 8, 128#8 >>> n.val = BitVec.twoPow 8 (7 - n.val) := by decide
  exact hbit ⟨pos % 8, Nat.mod_lt pos (by decide)⟩

/-- A byte of the track under the mask of a position is the byte's bit of that position. -/
theorem and_trackMask_ne_zero_iff (b : Byte) (pos : Nat) :
    b &&& trackMask pos ≠ 0 ↔ b.getLsbD (7 - pos % 8) = true := by
  have hmask : BitVec.twoPow 8 (7 - pos % 8) ≠ 0 := by
    rw [Ne, ← BitVec.toNat_inj, BitVec.toNat_twoPow_of_lt (by omega)]
    exact (Nat.two_pow_pos _).ne'
  rw [trackMask_eq_twoPow, BitVec.and_twoPow]
  cases b.getLsbD (7 - pos % 8) with
  | false => simp
  | true => simpa using hmask

/-- A phase of at least 1 reads the circular track 16 positions ahead for each phase after the first. -/
theorem phaseBit_eq_trackBit (track : Vector Byte 16) (pos : Nat) {phase : BitVec 4} (h : 1 ≤ phase.toNat) :
    phaseBit track pos phase = trackBit track ((pos + 16 * (phase.toNat - 1)) % 128) := by
  have hbyte : trackOffset pos phase =
      ⟨(pos + 16 * (phase.toNat - 1)) % 128 / 8 % 16, Nat.mod_lt _ (by decide)⟩ := by
    apply Fin.ext
    simp only [trackOffset]
    omega
  have hbit : (pos + 16 * (phase.toNat - 1)) % 128 % 8 = pos % 8 := by omega
  simp only [phaseBit, trackBit, hbyte, hbit, and_trackMask_ne_zero_iff, Bool.decide_eq_true]

/-- The phases of a legal PIN_ORDER lie in 1..8 (40_table_builder R103). -/
theorem phase_range_of_legalPinOrder {order : Vector (BitVec 4) 8} (h : legalPinOrder order = true) (pin : Fin 8) :
    1 ≤ order[pin].toNat ∧ order[pin].toNat ≤ 8 := by
  simp only [legalPinOrder, Bool.and_eq_true, List.all_eq_true, decide_eq_true_eq] at h
  obtain ⟨hrange, _⟩ := h
  exact hrange order[pin] (by simp)

/-- Settles O11: each pin reads its own phase, and a legal phase reads the track that far ahead. -/
theorem patternReadsTrackAtPhase : Obligations.PatternReadsTrackAtPhase := by
  intro track order pos pin ho _
  obtain ⟨hone, _⟩ := phase_range_of_legalPinOrder ho pin
  rw [pattern_getLsbD, phaseBit_eq_trackBit track pos hone]

/-! ### The whole of TABLE (40_table_builder R105) -/

/-- Under a legal track and wiring the 128 patterns are pairwise distinct. -/
theorem patterns_nodup {track : Vector Byte 16} {order : Vector (BitVec 4) 8} (ht : legalTrack track = true)
    (ho : legalPinOrder order = true) : ((List.range 128).map (pattern track order)).Nodup :=
  List.nodup_range.map_on fun _ hpos _ hpos' h =>
    pattern_injective ht ho (List.mem_range.mp hpos) (List.mem_range.mp hpos') h

/-- An entry holds the sentinel exactly where no position has its pattern. -/
theorem build_read_eq_sentinel_iff (track : Vector Byte 16) (order : Vector (BitVec 4) 8) (p : Byte) :
    (build track order).read p.toNat = 255 ↔ ∀ pos, pos < 128 → pattern track order pos ≠ p := by
  rcases build_read_cases track order p with ⟨pos, hpos, hp, hv⟩ | ⟨hne, hv⟩
  · refine iff_of_false (fun h => ?_) fun h => h pos hpos hp
    have hnat : pos = 255 := by rw [← ofNat8_toNat_of_lt hpos, ← hv, h]; rfl
    omega
  · exact iff_of_true hv hne

/-- The addresses other than those left at the sentinel are the 128 patterns, in some order. -/
theorem writtenAddresses_perm_patterns {track : Vector Byte 16} {order : Vector (BitVec 4) 8}
    (ht : legalTrack track = true) (ho : legalPinOrder order = true) :
    ((List.range 256).filter fun a => !decide ((build track order).read a = 255)).Perm
      (((List.range 128).map (pattern track order)).map BitVec.toNat) := by
  have hnodup := (patterns_nodup ht ho).map fun _ _ => BitVec.eq_of_toNat_eq
  refine (List.perm_ext_iff_of_nodup (List.nodup_range.filter _) hnodup).mpr fun a => ?_
  simp only [List.mem_filter, List.mem_range, List.mem_map, Bool.not_eq_true', decide_eq_false_iff_not]
  constructor
  · rintro ⟨ha, hread⟩
    have hnat : (BitVec.ofNat 8 a).toNat = a := by rw [BitVec.toNat_ofNat]; omega
    rw [← hnat, build_read_eq_sentinel_iff] at hread
    push Not at hread
    obtain ⟨pos, hpos, hp⟩ := hread
    exact ⟨_, ⟨pos, hpos, hp⟩, hnat⟩
  · rintro ⟨p, ⟨pos, hpos, hp⟩, rfl⟩
    exact ⟨p.isLt, fun h => (build_read_eq_sentinel_iff track order p).mp h pos hpos hp⟩

/-- Half of TABLE is the sentinel: the 128 entries that are no pattern. -/
theorem length_sentinelAddresses {track : Vector Byte 16} {order : Vector (BitVec 4) 8}
    (ht : legalTrack track = true) (ho : legalPinOrder order = true) :
    ((List.range 256).filter fun a => decide ((build track order).read a = 255)).length = 128 := by
  have hwritten := (writtenAddresses_perm_patterns ht ho).length_eq
  have hsplit := (List.range 256).length_eq_length_filter_add fun a => decide ((build track order).read a = 255)
  simp only [List.length_map, List.length_range] at hwritten hsplit
  omega

/-- Settles O12: the 128 patterns are distinct, so BUILD writes 128 different entries, once each. -/
theorem tableHoldsEachPositionOnce : Obligations.TableHoldsEachPositionOnce := by
  intro track order ht ho
  exact ⟨fun _ hpos => build_existsUnique ht ho hpos, build_read_range track order, length_sentinelAddresses ht ho,
    patterns_nodup ht ho, fun _ hpos => build_read_pattern ht ho hpos⟩

/-! ### A failed bus read (40_table_builder R108, R109) -/

/-- Settles O19: a command that reads the encoder ends in its reading when the bus read fails. -/
theorem busFailureEndsTheCommand : Obligations.BusFailureEndsTheCommand := by
  intro s i hready hreads hfail
  rw [exec_of_readsEncoder s hreads, State.command_ready hready, State.withRaw_of_fail hfail]
  rfl

/-! ### A malformed configuration (40_table_builder R103, R104; 70_reset R281) -/

/-- The reset sequence stops at validation, before BUILD and before any request. -/
theorem boot_of_malformed {track : Vector Byte 16} {inputs : ConfigInputs}
    (h : legalPinOrder inputs.pinOrder = false ∨ legalTrack track = false) (busAddr : Nat) (a : BootAnswers)
    (r : Registers) :
    boot track busAddr inputs a r = bootFail { r with lastSaved := none } .config .configError false [] := by
  rcases boot_cases track busAddr inputs a r with ⟨_, hb⟩ | ⟨hpins, htrack, _⟩
  · exact hb
  · rcases h with h | h
    · exact Bool.noConfusion (h.symm.trans hpins)
    · exact Bool.noConfusion (h.symm.trans htrack)

/-- A reset with a malformed configuration on a state: only validation's registers and the response change. -/
theorem State.runReset_of_malformed {s : State} {inputs : ConfigInputs}
    (h : legalPinOrder inputs.pinOrder = false ∨ legalTrack s.trackSpec = false) :
    s.runReset inputs = { s with
      pinOrder := inputs.pinOrder
      reverse := inputs.reverse
      persistConfigured := inputs.persistConfigured
      lastSaved := none
      mode := .failed
      failCause := .config
      response := some { status := .configError, warn := false, data := 0 } } := by
  have hb : s.bootResult inputs = bootFail { s.registers with lastSaved := none } .config .configError false [] :=
    boot_of_malformed h s.busAddr s.bootAnswers s.registers
  unfold State.runReset
  rw [hb]
  rfl

/-- Settles O50: the step is the reset sequence, which validation ends. -/
theorem resetRefusesMalformedConfiguration : Obligations.ResetRefusesMalformedConfiguration := by
  intro s inputs rest hhost hmalformed
  rw [step_reset hhost, State.runReset_of_malformed (s := { s with host := rest }) hmalformed]

end Sys2Proof.Machine
end

-- The position reads (41_position_reads): RAW, UPOS and SPOS of a valid reading, and the arithmetic of the unsigned and
-- the signed position.
section

namespace Sys2Proof.Machine

/-! ### A valid reading (40_table_builder R108) -/

/-- A command that reads the encoder on a READY block makes one bus read and acts on the position. -/
theorem exec_of_position {s : State} {i : Instr} {p : Byte} {raw : BitVec 7} (hreads : readsEncoder i = true)
    (hready : s.mode = .ready) (hpos : s.ReadsPosition p raw) :
    exec i s = .next (afterReading i raw s.afterBusRead) := by
  rw [exec_of_readsEncoder s hreads, State.command_ready hready, State.withRaw_of_position hpos]

/-- Settles O16: RAW answers the position it reads. -/
theorem rawReturnsRawPosition : Obligations.RawReturnsRawPosition := by
  intro s p raw hready hpos
  rw [exec_of_position rfl hready hpos]
  rfl

theorem exec_upos_of_position {s : State} {p : Byte} {raw : BitVec 7} (hready : s.mode = .ready)
    (hpos : s.ReadsPosition p raw) :
    exec .upos s = .next (s.afterBusRead.respond false (BitVec.ofNat 32 (s.upos raw))) :=
  exec_of_position rfl hready hpos

theorem exec_spos_of_position {s : State} {p : Byte} {raw : BitVec 7} (hready : s.mode = .ready)
    (hpos : s.ReadsPosition p raw) :
    exec .spos s = .next (s.afterBusRead.respond false (BitVec.ofInt 32 (s.spos raw))) :=
  exec_of_position rfl hready hpos

/-! ### The unsigned position (41_position_reads R131) -/

theorem State.upos_le (s : State) (raw : BitVec 7) : s.upos raw ≤ 127 :=
  (uposOf_spec s.reverse s.zero raw).1

theorem State.upos_congr (s : State) (raw : BitVec 7) : ((s.upos raw : Int) - s.rawOffset raw) % 128 = 0 :=
  (uposOf_spec s.reverse s.zero raw).2

/-- A range of 128 values holds one value of each residue, so the unsigned position is unique. -/
theorem State.upos_eq_of_congr {s : State} {raw : BitVec 7} {u : Nat} (hle : u ≤ 127)
    (hcongr : ((u : Int) - s.rawOffset raw) % 128 = 0) : s.upos raw = u := by
  have hle' := s.upos_le raw
  have hcongr' := s.upos_congr raw
  omega

theorem State.toNat_ofNat_upos (s : State) (raw : BitVec 7) : (BitVec.ofNat 32 (s.upos raw)).toNat = s.upos raw := by
  have hle := s.upos_le raw
  rw [BitVec.toNat_ofNat]
  omega

/-- Settles O17: UPOS answers the unsigned position, the only value the premises allow. -/
theorem uposReturnsUnsignedPosition : Obligations.UposReturnsUnsignedPosition := by
  intro s p raw u hready hpos hle hcongr
  rw [exec_upos_of_position hready hpos, State.upos_eq_of_congr hle hcongr]
  rfl

/-! ### The signed position (41_position_reads R134, R135) -/

theorem State.isSigned_spos (s : State) (raw : BitVec 7) : s.IsSigned raw (s.spos raw) :=
  sposOf_spec s.reverse s.zero raw

/-- The signed position is unique, as the unsigned one is. -/
theorem State.IsSigned.spos_eq {s : State} {raw : BitVec 7} {v : Int} (h : s.IsSigned raw v) : s.spos raw = v := by
  obtain ⟨hlo, hhi, hcongr⟩ := h
  obtain ⟨hlo', hhi', hcongr'⟩ := s.isSigned_spos raw
  omega

theorem State.toInt_ofInt_spos (s : State) (raw : BitVec 7) : (BitVec.ofInt 32 (s.spos raw)).toInt = s.spos raw := by
  obtain ⟨hlo, hhi, _⟩ := s.isSigned_spos raw
  exact toInt_ofInt32 (by omega) (by omega)

/-- Settles O18: SPOS answers the signed position, the only value the premise allows. -/
theorem sposReturnsSignedPosition : Obligations.SposReturnsSignedPosition := by
  intro s p raw v hready hpos hsigned
  rw [exec_spos_of_position hready hpos, hsigned.spos_eq]
  rfl

/-- Two 7-bit positions differ by less than a turn, in either direction of counting. -/
theorem State.rawOffset_range (s : State) (raw : BitVec 7) : -127 ≤ s.rawOffset raw ∧ s.rawOffset raw ≤ 127 := by
  have hraw := raw.isLt
  have hzero := s.zero.isLt
  unfold State.rawOffset
  split <;> omega

/-- The correction of an offset by one turn (41_position_reads R135). -/
def correctOnce (offset : Int) : Int :=
  if offset > 63 then offset - 128 else if offset < -64 then offset + 128 else offset

/-- One correction suffices: an offset of less than a turn is at most one turn away from -64..63. -/
theorem State.isSigned_correctOnce (s : State) (raw : BitVec 7) : s.IsSigned raw (correctOnce (s.rawOffset raw)) := by
  obtain ⟨hlo, hhi⟩ := s.rawOffset_range raw
  unfold State.IsSigned correctOnce
  split
  case isTrue => omega
  case isFalse => split <;> omega

/-- Settles O23: the corrected offset is a signed position, hence the signed position. -/
theorem singleCorrectionGivesSignedPosition : Obligations.SingleCorrectionGivesSignedPosition := by
  intro s raw
  obtain ⟨hlo, hhi⟩ := s.rawOffset_range raw
  exact ⟨hlo, hhi, (s.isSigned_correctOnce raw).spos_eq.symm, s.isSigned_spos raw⟩

/-! ### Both positions of one reading (41_position_reads R136) -/

theorem State.spos_eq_ite (s : State) (raw : BitVec 7) :
    s.spos raw = if s.upos raw ≤ 63 then (s.upos raw : Int) else (s.upos raw : Int) - 128 := rfl

theorem State.upos_eq_spos_emod (s : State) (raw : BitVec 7) : (s.upos raw : Int) = s.spos raw % 128 := by
  have hle := s.upos_le raw
  rw [State.spos_eq_ite]
  split <;> omega

/-- One step against the direction of counting, from position 0. -/
theorem State.rawOffset_one_of_reverse {s : State} (hrev : s.reverse = true) (hzero : s.zero = 0) :
    s.rawOffset 1 = -1 := by
  unfold State.rawOffset
  rw [hrev, hzero]
  rfl

/-- Settles O22: the answers are the unsigned and the signed position, and R136's example has the offset -1. -/
theorem signedAgreesWithUnsigned : Obligations.SignedAgreesWithUnsigned := by
  intro s p raw hready hpos
  refine ⟨BitVec.ofNat 32 (s.upos raw), BitVec.ofInt 32 (s.spos raw), exec_upos_of_position hready hpos,
    exec_spos_of_position hready hpos, ?_⟩
  rw [State.toNat_ofNat_upos, State.toInt_ofInt_spos]
  refine ⟨s.spos_eq_ite raw, s.upos_eq_spos_emod raw, ?_⟩
  rintro hrev hzero rfl
  have hoffset := State.rawOffset_one_of_reverse hrev hzero
  have hupos : s.upos 1 = 127 := State.upos_eq_of_congr le_rfl (by rw [hoffset]; decide)
  have hspos : s.IsSigned 1 (-1) := ⟨by decide, by decide, by rw [hoffset]; decide⟩
  exact ⟨hupos, hspos.spos_eq⟩

end Sys2Proof.Machine
end

-- The multi-turn position (42_multiturn): the wraparound detector on a valid reading, what MPOS commits, what it asks of
-- the store, and the shaft's motion.
section

namespace Sys2Proof.Machine

/-! ### MPOS of a valid reading (42_multiturn R160) -/

theorem exec_mpos_of_position {s : State} {p : Byte} {raw : BitVec 7} {v : Int} (hready : s.mode = .ready)
    (hpos : s.ReadsPosition p raw) (hsigned : s.IsSigned raw v) :
    exec .mpos s = .next (s.afterBusRead.accumulate v (rollover s.turns s.last.toInt v)) := by
  rw [exec_of_position rfl hready hpos, ← hsigned.spos_eq]
  rfl

theorem State.IsSigned.range {s : State} {raw : BitVec 7} {v : Int} (h : s.IsSigned raw v) : -64 ≤ v ∧ v ≤ 63 := by
  obtain ⟨hlo, hhi, _⟩ := h
  exact ⟨hlo, hhi⟩

/-- The signed position depends on REVERSE and ZERO alone. -/
theorem State.IsSigned.of_same_frame {s t : State} {raw : BitVec 7} {v : Int} (h : s.IsSigned raw v)
    (hrev : t.reverse = s.reverse) (hzero : t.zero = s.zero) : t.IsSigned raw v := by
  unfold State.IsSigned State.rawOffset at h ⊢
  rw [hrev, hzero]
  exact h

/-! ### The three endings of MPOS (42_multiturn R161, R164, R167) -/

theorem State.accumulate_of_overflow {s : State} {v t1 : Int} (h : turnsInRange t1 = false) :
    s.accumulate v t1 = s.raise .turnOverflow 0 := by
  simp [State.accumulate, h]

theorem State.accumulate_of_rollover {s : State} {v t1 : Int} (h : turnsInRange t1 = true) (hne : t1 ≠ s.turns) :
    s.accumulate v t1 =
      State.saveAndRespond { s with turnNumber := turnNumberOf t1, last := BitVec.ofInt 8 v }
        (BitVec.ofInt 32 (t1 + v)) := by
  simp [State.accumulate, h, hne]

theorem State.accumulate_of_no_rollover {s : State} (v : Int) (h : turnsInRange s.turns = true) :
    s.accumulate v s.turns =
      State.respond { s with last := BitVec.ofInt 8 v } false (BitVec.ofInt 32 (s.turns + v)) := by
  have hsame : turnNumberOf s.turns = s.turnNumber := turnNumberOf_turnsOf s.turnNumber
  simp [State.accumulate, h, hsame]

/-- A difference of exactly half a turn is not a rollover either (42_multiturn R163). -/
theorem rollover_of_close {turns last v : Int} (hfall : last - v ≤ 64) (hrise : v - last ≤ 64) :
    rollover turns last v = turns := by
  have h := rollover_cases turns last v
  omega

theorem turnsInRange_of_le {t : Int} (hmin : turnsMin ≤ t) (hmax : t ≤ turnsMax) : turnsInRange t = true :=
  (turnsInRange_iff t).mpr ⟨hmin, hmax⟩

theorem turnsInRange_eq_false_iff (t : Int) : turnsInRange t = false ↔ t < turnsMin ∨ turnsMax < t := by
  rw [← Bool.not_eq_true, turnsInRange_iff]
  unfold turnsMin turnsMax
  omega

/-- TURNS cannot pass TURNS_MAX, which is the largest value of its register. -/
theorem State.turns_le_max (s : State) : s.turns ≤ turnsMax := (turnsOf_spec s.turnNumber).2.2

/-- Settles O24: the detector leaves TURNS, so nothing is saved. -/
theorem mposWithoutRollover : Obligations.MposWithoutRollover := by
  intro s p raw v hready hpos hsigned hmin hfall hrise
  have hrange : turnsInRange s.afterBusRead.turns = true := turnsInRange_of_le hmin s.turns_le_max
  rw [exec_mpos_of_position hready hpos hsigned, rollover_of_close hfall hrise, ← s.afterBusRead_turns,
    State.accumulate_of_no_rollover v hrange]
  rfl

/-- Settles O26: the turn count the detector gives is out of range. -/
theorem mposOverflowCommitsNothing : Obligations.MposOverflowCommitsNothing := by
  intro s p raw v hready hpos hsigned hover
  have hrange : turnsInRange (rollover s.turns s.last.toInt v) = false := by
    have h := rollover_cases s.turns s.last.toInt v
    rw [turnsInRange_eq_false_iff]
    omega
  rw [exec_mpos_of_position hready hpos hsigned, State.accumulate_of_overflow hrange]
  rfl

/-- Settles O25: the detector moves TURNS by a turn, and SAVE runs on the committed registers. -/
theorem mposCountsRollover : Obligations.MposCountsRollover := by
  intro s p raw v t1 hready hpos hsigned hcounts hmin hmax
  have hroll : rollover s.turns s.last.toInt v = t1 := by
    have h := rollover_cases s.turns s.last.toInt v
    omega
  have hrange : turnsInRange t1 = true := turnsInRange_of_le hmin hmax
  have hne : t1 ≠ s.afterBusRead.turns := by rw [State.afterBusRead_turns]; omega
  have hmod : t1 % 128 = 0 := hroll ▸ s.rollover_turns_mod _ _
  obtain ⟨hmin', hmax'⟩ := (turnsInRange_iff t1).mp hrange
  obtain ⟨hlo, hhi⟩ := hsigned.range
  refine ⟨turnNumberOf t1, BitVec.ofInt 8 v, _, _, turnsOf_turnNumberOf hmod (by omega) hmax',
    toInt_ofInt8 (by omega) (by omega), State.save_cases _, ?_⟩
  rw [exec_mpos_of_position hready hpos hsigned, hroll, State.accumulate_of_rollover hrange hne]
  rfl

/-! ### What a successful MPOS commits (42_multiturn R165, R166) -/

/-- The commit of MPOS from `s` to `t` with the signed position `v` and the turn count `t1`: TURNS, LAST and the answer
T1 + s, in an unchanged frame. -/
structure State.CommitsMpos (s t : State) (v t1 : Int) : Prop where
  turns_eq : t.turns = t1
  last_eq : t.last.toInt = v
  zero_eq : t.zero = s.zero
  reverse_eq : t.reverse = s.reverse
  answers : ∃ r, t.response = some r ∧ r.status = .ok ∧ r.data.toInt = t1 + v

/-- The bus read before the commit is not seen in the frame. -/
theorem State.CommitsMpos.of_afterBusRead {s t : State} {v t1 : Int} (h : s.afterBusRead.CommitsMpos t v t1) :
    s.CommitsMpos t v t1 :=
  ⟨h.turns_eq, h.last_eq, h.zero_eq, h.reverse_eq, h.answers⟩

/-- Both endings that commit, with a rollover or without, write the same registers and give the same answer. -/
theorem State.commitsMpos_accumulate (s : State) {v t1 : Int} (hlo : -64 ≤ v) (hhi : v ≤ 63) (hmod : t1 % 128 = 0)
    (hrange : turnsInRange t1 = true) : s.CommitsMpos (s.accumulate v t1) v t1 := by
  obtain ⟨hmin, hmax⟩ := (turnsInRange_iff t1).mp hrange
  have hturns : turnsOf (turnNumberOf t1) = t1 := turnsOf_turnNumberOf hmod (by omega) hmax
  have hlast : (BitVec.ofInt 8 v).toInt = v := toInt_ofInt8 (by omega) (by omega)
  have hdata : (BitVec.ofInt 32 (t1 + v)).toInt = t1 + v := toInt_ofInt32 (by omega) (by omega)
  rcases State.accumulate_cases s v t1 with ⟨hover, _⟩ | ⟨_, _, h⟩ | ⟨_, hsame, h⟩
  · exact Bool.noConfusion (hover.symm.trans hrange)
  · rw [h]
    exact ⟨(State.saveAndRespond_turns _ _).trans hturns, by simpa using hlast, by simp, by simp, _, rfl, rfl, hdata⟩
  · rw [h]
    exact ⟨hsame.symm, hlast, rfl, rfl, _, rfl, rfl, hdata⟩

/-- MPOS answers OK only with a turn count in range. -/
theorem State.turnsInRange_of_accumulate_ok {s : State} {v t1 : Int} {r : Response}
    (hr : (s.accumulate v t1).response = some r) (hok : r.status = .ok) : turnsInRange t1 = true := by
  cases hrange : turnsInRange t1 with
  | true => rfl
  | false =>
    rw [State.accumulate_of_overflow hrange, State.raise_response] at hr
    cases hr
    cases hok

/-- What a successful MPOS read, where it went, and what it committed. -/
theorem exec_mpos_ok {s t : State} {r : Response} (h : exec .mpos s = .next t) (hr : t.response = some r)
    (hok : r.status = .ok) :
    ∃ p raw, s.nextBusRead = .byte p ∧ lookupRaw s.table p = some raw ∧
      t = s.afterBusRead.accumulate (s.spos raw) (rollover s.turns s.last.toInt (s.spos raw)) ∧
      s.CommitsMpos t (s.spos raw) (rollover s.turns s.last.toInt (s.spos raw)) := by
  rw [exec_mpos] at h
  obtain ⟨_, hbody⟩ := State.command_ok h hr hok
  obtain ⟨p, raw, hbus, hlookup, rfl⟩ := State.withRaw_ok hbody hr hok
  obtain ⟨hlo, hhi⟩ := (s.isSigned_spos raw).range
  exact ⟨p, raw, hbus, hlookup, rfl, State.CommitsMpos.of_afterBusRead <|
    State.commitsMpos_accumulate _ hlo hhi (s.rollover_turns_mod _ _) (State.turnsInRange_of_accumulate_ok hr hok)⟩

/-- An MPOS of a valid reading succeeds where the detector's turn count is in range. -/
theorem exec_mpos_commits {s : State} {p : Byte} {raw : BitVec 7} {v t1 : Int} (hready : s.mode = .ready)
    (hpos : s.ReadsPosition p raw) (hsigned : s.IsSigned raw v) (hroll : rollover s.turns s.last.toInt v = t1)
    (hrange : turnsInRange t1 = true) : ∃ t, exec .mpos s = .next t ∧ s.CommitsMpos t v t1 := by
  obtain ⟨hlo, hhi⟩ := hsigned.range
  subst hroll
  exact ⟨_, exec_mpos_of_position hready hpos hsigned, State.CommitsMpos.of_afterBusRead <|
    State.commitsMpos_accumulate _ hlo hhi (s.rollover_turns_mod _ _) hrange⟩

/-- Settles O27: the answer is the sum of what MPOS commits, and the signed position is congruent to the offset. -/
theorem mposResultIsTurnsPlusLast : Obligations.MposResultIsTurnsPlusLast := by
  intro s t r p raw h hr hok ⟨hbus, hentry⟩
  obtain ⟨p', raw', hbus', hlookup, _, hcommits⟩ := exec_mpos_ok h hr hok
  cases hbus.symm.trans hbus'
  cases (lookupRaw_eq_some_of hentry).symm.trans hlookup
  obtain ⟨r', hr', _, hdata⟩ := hcommits.answers
  cases hr.symm.trans hr'
  have hmod := s.rollover_turns_mod s.last.toInt (s.spos raw)
  obtain ⟨_, _, hcongr⟩ := s.isSigned_spos raw
  rw [hcommits.turns_eq, hcommits.last_eq]
  exact ⟨hdata, by omega, hmod, hcommits.zero_eq⟩

/-! ### What MPOS asks of the store (42_multiturn R167; 44_persistence R221, R224) -/

/-- SAVE asks the store for the registers' record, unless none is configured or LAST_SAVED equals it. -/
theorem State.save_requests (s : State) :
    s.save.requests = s.requests ++
      (if s.persistConfigured = true ∧ s.lastSaved ≠ some s.record then [.storeSave s.record] else []) := by
  rcases State.save_cases s with ⟨hnone, h, _⟩ | ⟨hp, hne, _, _, h⟩ | ⟨hp, hne, _, _, _, h⟩
  · rw [if_neg (by rintro ⟨hp, hne⟩; simp [hp, hne] at hnone), h, List.append_nil]
  · rw [if_pos ⟨hp, hne⟩, h]
  · rw [if_pos ⟨hp, hne⟩, h]

/-- A record with the values of ZERO and TURNS is the one SAVE sends. -/
theorem State.eq_record_of {s : State} {rec : Record} (hzero : rec.zero.toNat = s.zero.toNat)
    (hturns : rec.turns.toInt = s.turns) : rec = s.record := by
  obtain ⟨zero, turns⟩ := rec
  have hz : zero = s.zero.setWidth 8 := by
    apply BitVec.eq_of_toNat_eq
    have hlt := s.zero.isLt
    rw [hzero, BitVec.toNat_setWidth]
    omega
  have ht : turns = turnsWord s.turnNumber := BitVec.eq_of_toInt_eq (hturns.trans (turnsWord_toInt _).symm)
  rw [hz, ht, State.record]

theorem State.accumulate_requests_of_rollover {s : State} {v t1 : Int} (h : turnsInRange t1 = true)
    (hne : t1 ≠ s.turns) :
    (s.accumulate v t1).requests = s.requests ++
      (if s.persistConfigured = true ∧ s.lastSaved ≠ some (s.accumulate v t1).record then
        [.storeSave (s.accumulate v t1).record] else []) := by
  rw [State.accumulate_of_rollover h hne, State.saveAndRespond_requests, State.saveAndRespond_record,
    State.save_requests]

theorem State.accumulate_requests_of_no_rollover {s : State} (v : Int) (h : turnsInRange s.turns = true) :
    (s.accumulate v s.turns).requests = s.requests := by
  rw [State.accumulate_of_no_rollover v h, State.respond_requests]

/-- Settles O28: of the two endings that commit, SAVE runs in the one that moves TURNS. -/
theorem mposSavesOnRolloverOnly : Obligations.MposSavesOnRolloverOnly := by
  intro s t r rec h hr hok ⟨hzero, hturns⟩
  rw [State.eq_record_of hzero hturns]
  obtain ⟨_, raw, _, _, ht, hcommits⟩ := exec_mpos_ok h hr hok
  have hrange := State.turnsInRange_of_accumulate_ok (ht ▸ hr) hok
  rw [← hcommits.turns_eq] at ht hrange
  refine ⟨fun hsame => ⟨hcommits.zero_eq, ?_⟩, fun hmoved => ?_⟩
  · rw [hsame] at ht hrange
    rw [ht]
    exact State.accumulate_requests_of_no_rollover (s := s.afterBusRead) _ hrange
  · have hreq := State.accumulate_requests_of_rollover (s := s.afterBusRead) (v := s.spos raw) hrange hmoved
    rw [← ht] at hreq
    exact hreq

/-! ### Two readings in a row (42_multiturn R168) -/

/-- Settles O29: the first reading leaves LAST at v, and the second is 120 positions away from it. -/
theorem rolloverMovesTurnsBy128 : Obligations.RolloverMovesTurnsBy128 := by
  intro s p p' raw raw' v hready hlast hcases hpos hsigned hpos' hsigned'
  have hlast0 : s.last.toInt = 0 := by rw [hlast]; rfl
  have hmin : turnsMin ≤ s.turns := by omega
  have hfirst := mposWithoutRollover s p raw v hready hpos hsigned hmin (by omega) (by omega)
  have hmax := s.turns_le_max
  unfold turnsMin turnsMax at *
  have hv : (BitVec.ofInt 8 v).toInt = v := toInt_ofInt8 (by omega) (by omega)
  have hdata : (BitVec.ofInt 32 (s.turns + v)).toInt = s.turns + v := toInt_ofInt32 (by omega) (by omega)
  have hroll := rollover_cases s.turns v (-v)
  have hrange : turnsInRange (rollover s.turns v (-v)) = true := by
    rw [turnsInRange_iff]
    omega
  obtain ⟨t', ht', hcommits⟩ := exec_mpos_commits
    (s := { s.afterBusRead with
      last := BitVec.ofInt 8 v
      response := some { status := .ok, warn := false, data := BitVec.ofInt 32 (s.turns + v) } })
    hready hpos' hsigned' (congrArg (rollover s.turns · (-v)) hv) hrange
  obtain ⟨r', hr', hok', hdata'⟩ := hcommits.answers
  have hturns' := hcommits.turns_eq
  exact ⟨_, t', _, r', hfirst, rfl, rfl, hdata, rfl, ht', hr', hok', by omega, by omega⟩

/-! ### The shaft's motion (42_multiturn R162, R165; 70_reset R290) -/

/-- A motion of the shaft moves the offset as far, modulo a turn, whichever way positions count. -/
theorem State.rawOffset_of_motion {s : State} {prev raw : BitVec 7} {m : Int}
    (h : ((raw.toNat : Int) - (prev.toNat + (if s.reverse then -m else m))) % 128 = 0) :
    (s.rawOffset raw - (s.rawOffset prev + m)) % 128 = 0 := by
  unfold State.rawOffset
  cases hrev : s.reverse with
  | true => rw [hrev, if_pos rfl] at h; rw [if_pos rfl]; omega
  | false => rw [hrev, if_neg Bool.false_ne_true] at h; rw [if_neg Bool.false_ne_true]; omega

/-- Within half a turn the detector makes up for the turn by which the signed position wraps (42_multiturn R162). -/
theorem rollover_add_of_motion {turns last v m : Int} (hlast : -64 ≤ last ∧ last ≤ 63) (hv : -64 ≤ v ∧ v ≤ 63)
    (hm : -63 ≤ m ∧ m ≤ 63) (hcongr : (v - (last + m)) % 128 = 0) :
    rollover turns last v + v = turns + last + m := by
  have h := rollover_cases turns last v
  omega

/-- Settles O30: the committed turn count and position add up to the old ones and the motion. -/
theorem mposTracksShaftMotion : Obligations.MposTracksShaftMotion := by
  intro s p prev raw m hready hprev hpos hmlo hmhi hmotion hmin hmax hlo hhi
  have hsigned := s.isSigned_spos raw
  have hoffset := State.rawOffset_of_motion hmotion
  obtain ⟨hlastlo, hlasthi, hlastcongr⟩ := hprev
  obtain ⟨hvlo, hvhi, hvcongr⟩ := s.isSigned_spos raw
  have hsum : rollover s.turns s.last.toInt (s.spos raw) + s.spos raw = s.turns + s.last.toInt + m :=
    rollover_add_of_motion ⟨hlastlo, hlasthi⟩ ⟨hvlo, hvhi⟩ ⟨hmlo, hmhi⟩ (by omega)
  have hmod := s.rollover_turns_mod s.last.toInt (s.spos raw)
  have hrange : turnsInRange (rollover s.turns s.last.toInt (s.spos raw)) = true := by
    rw [turnsInRange_iff]
    omega
  obtain ⟨t, ht, hcommits⟩ := exec_mpos_commits hready hpos hsigned rfl hrange
  obtain ⟨r, hr, hok, hdata⟩ := hcommits.answers
  refine ⟨t, r, ht, hr, hok, hdata.trans hsum, ?_, ?_⟩
  · rw [hcommits.turns_eq, hcommits.last_eq, hdata]
  · rw [hcommits.last_eq]
    exact hsigned.of_same_frame hcommits.reverse_eq hcommits.zero_eq

/-! ### The first MPOS after a reset (70_reset R281, R283) -/

/-- Settles O31: no signed position is more than half a turn away from the LAST = 0 of the reset. -/
theorem firstMposAfterResetCountsNoRollover : Obligations.FirstMposAfterResetCountsNoRollover := by
  intro s inputs p raw v hready hpos hsigned
  obtain ⟨_, _, _, hlast, _, hrange, _⟩ := boot_ready hready
  have hlast0 : (s.runReset inputs).last.toInt = 0 := congrArg BitVec.toInt hlast
  have hmin : turnsMin ≤ (s.runReset inputs).turns := ((turnsInRange_iff _).mp hrange).1
  obtain ⟨hlo, hhi⟩ := hsigned.range
  exact mposWithoutRollover _ p raw v hready hpos hsigned hmin (by omega) (by omega)

end Sys2Proof.Machine
end

-- Calibration (43_calibration): the ends of SETZ, SETZC, GETZ and SETABS, the position reads in the frame that SETZC
-- sets, and MPOS in the frame that SETABS sets.
section

namespace Sys2Proof.Machine

/-! ### SETZ, SETZC and GETZ (43_calibration R180 to R184) -/

theorem exec_setz_of_ready {s : State} (hready : s.mode = .ready) (value : Nat) :
    exec (.setz value) s = .next (State.saveAndRespond { s with zero := BitVec.ofNat 7 value } 0) := by
  rw [exec_setz, State.command_ready hready]

theorem exec_setzc_of_position {s : State} {p : Byte} {raw : BitVec 7} (hready : s.mode = .ready)
    (hpos : s.ReadsPosition p raw) :
    exec .setzc s = .next (State.saveAndRespond { s.afterBusRead with zero := raw } 0) :=
  exec_of_position rfl hready hpos

/-- Settles O32: the 7-bit ZERO register takes the operand modulo 128, and SAVE runs on the committed registers. -/
theorem setzSetsZeroModulo128 : Obligations.SetzSetsZeroModulo128 := by
  intro s value hready
  exact ⟨BitVec.ofNat 7 value, _, _, BitVec.toNat_ofNat value 7, State.save_cases _,
    exec_setz_of_ready hready value⟩

/-- Settles O33: ZERO takes the position read, and SAVE runs on the committed registers. -/
theorem setzcSetsZeroToReading : Obligations.SetzcSetsZeroToReading := by
  intro s p raw hready hpos
  exact ⟨_, _, State.save_cases _, exec_setzc_of_position hready hpos⟩

/-- Settles O34: GETZ ends in its response. -/
theorem getzReturnsZero : Obligations.GetzReturnsZero := by
  intro s hready
  rw [exec_getz, State.command_ready hready, BitVec.ofNat_toNat]
  rfl

/-! ### GETZ after a setter (43_calibration R185) -/

/-- SAVE and its response keep ZERO and MODE, so a GETZ that follows answers the ZERO committed before them. -/
theorem exec_getz_saveAndRespond {s : State} (hready : s.mode = .ready) (d : Word32) :
    exec .getz (s.saveAndRespond d) = .next { s.saveAndRespond d with
      response := some { status := .ok, warn := false, data := BitVec.ofNat 32 s.zero.toNat } } := by
  rw [← s.saveAndRespond_zero d]
  exact getzReturnsZero _ ((s.saveAndRespond_mode d).trans hready)

/-- Settles O39: both setters end in SAVE and its response, which no answer of the store takes ZERO back from. -/
theorem getzAfterSetZeroReturnsIt : Obligations.GetzAfterSetZeroReturnsIt := by
  intro s t value p raw hready
  refine ⟨fun h => ?setz, fun hpos h => ?setzc⟩
  case setz =>
    rw [exec_setz_of_ready hready] at h
    cases h
    have hgetz := exec_getz_saveAndRespond (s := { s with zero := BitVec.ofNat 7 value }) hready 0
    rw [BitVec.toNat_ofNat] at hgetz
    exact hgetz
  case setzc =>
    rw [exec_setzc_of_position hready hpos] at h
    cases h
    exact exec_getz_saveAndRespond (s := { s.afterBusRead with zero := raw }) hready 0

/-! ### The frame that SETZC sets (43_calibration R183) -/

/-- As `State.withRaw_of_position`, of any pattern that TABLE decodes, whatever the entry's top bit (log 13). -/
theorem State.withRaw_of_lookup {s : State} {p : Byte} {raw : BitVec 7} (hbus : s.nextBusRead = .byte p)
    (hlookup : lookupRaw s.table p = some raw) (rest : BitVec 7 → State → State) :
    s.withRaw rest = rest raw s.afterBusRead := by
  rcases s.withRaw_cases rest with ⟨hfail, _⟩ | ⟨p', hbus', hnone, _⟩ | ⟨p', raw', hbus', hsome, h⟩
  · cases hbus.symm.trans hfail
  · cases hbus.symm.trans hbus'
    cases hlookup.symm.trans hnone
  · cases hbus.symm.trans hbus'
    cases hlookup.symm.trans hsome
    exact h

theorem exec_of_lookup {s : State} {i : Instr} {p : Byte} {raw : BitVec 7} (hreads : readsEncoder i = true)
    (hready : s.mode = .ready) (hbus : s.nextBusRead = .byte p) (hlookup : lookupRaw s.table p = some raw) :
    exec i s = .next (afterReading i raw s.afterBusRead) := by
  rw [exec_of_readsEncoder s hreads, State.command_ready hready, State.withRaw_of_lookup hbus hlookup]

/-- A successful SETZC leaves in ZERO the position that TABLE gives the pattern read. -/
theorem exec_setzc_ok {s t : State} {r : Response} {p : Byte} (h : exec .setzc s = .next t)
    (hr : t.response = some r) (hok : r.status = .ok) (hbus : s.nextBusRead = .byte p) :
    lookupRaw t.table p = some t.zero := by
  rw [exec_setzc] at h
  obtain ⟨_, hbody⟩ := State.command_ok h hr hok
  obtain ⟨p', raw, hbus', hlookup, rfl⟩ := State.withRaw_ok hbody hr hok
  cases hbus.symm.trans hbus'
  simpa using hlookup

theorem State.rawOffset_self (s : State) : s.rawOffset s.zero = 0 := by
  unfold State.rawOffset
  rw [sub_self, zero_mul]

theorem State.upos_self (s : State) : s.upos s.zero = 0 :=
  State.upos_eq_of_congr (by decide) (by rw [s.rawOffset_self]; decide)

theorem State.spos_self (s : State) : s.spos s.zero = 0 := by
  have hsigned : s.IsSigned s.zero 0 := ⟨by decide, by decide, by rw [s.rawOffset_self]; decide⟩
  exact hsigned.spos_eq

/-- Settles O38: the pattern decodes to ZERO itself, whose offset is 0 in either direction of counting. -/
theorem setzcMakesThePatternZero : Obligations.SetzcMakesThePatternZero := by
  intro s t u r p h hr hok hbus hready hzero htable hbus'
  have hlookup : lookupRaw u.table p = some u.zero := by
    rw [htable, hzero]
    exact exec_setzc_ok h hr hok hbus
  have hupos : exec .upos u = .next (u.afterBusRead.respond false (BitVec.ofNat 32 (u.upos u.zero))) :=
    exec_of_lookup rfl hready hbus' hlookup
  have hspos : exec .spos u = .next (u.afterBusRead.respond false (BitVec.ofInt 32 (u.spos u.zero))) :=
    exec_of_lookup rfl hready hbus' hlookup
  rw [u.upos_self] at hupos
  rw [u.spos_self] at hspos
  exact ⟨hupos, hspos⟩

/-! ### The two ends of SETABS (43_calibration R186, R187, R189) -/

/-- The registers SETABS commits for its target at the position `raw`. -/
def State.withTarget (s : State) (target : Int) (raw : BitVec 7) : State :=
  { s with
    zero := BitVec.ofNat 7 (absZero s.reverse raw target)
    last := BitVec.ofInt 8 (absLast target)
    turnNumber := turnNumberOf (absTurns target) }

theorem State.recalibrate_of_inRange {target : Int} (h : turnsInRange (absTurns target) = true) (s : State)
    (raw : BitVec 7) : s.recalibrate target raw = (s.withTarget target raw).saveAndRespond 0 := by
  rcases s.recalibrate_cases target raw with ⟨hover, _⟩ | ⟨_, hcommit⟩
  · exact Bool.noConfusion (hover.symm.trans h)
  · exact hcommit

theorem State.recalibrate_of_overflow {target : Int} (h : turnsInRange (absTurns target) = false) (s : State)
    (raw : BitVec 7) : s.recalibrate target raw = s.raise .turnOverflow 0 := by
  rcases s.recalibrate_cases target raw with ⟨_, hover⟩ | ⟨hrange, _⟩
  · exact hover
  · exact Bool.noConfusion (h.symm.trans hrange)

theorem exec_setabs_of_position {s : State} {p : Byte} {raw : BitVec 7} (hready : s.mode = .ready)
    (hpos : s.ReadsPosition p raw) (target : Int) :
    exec (.setabs target) s = .next (s.afterBusRead.recalibrate target raw) :=
  exec_of_position rfl hready hpos

theorem State.withTarget_last_toInt (s : State) (target : Int) (raw : BitVec 7) :
    (s.withTarget target raw).last.toInt = absLast target := by
  obtain ⟨hlo, hhi, _⟩ := abs_spec target
  exact toInt_ofInt8 (by omega) (by omega)

theorem State.withTarget_turns (s : State) {target : Int} (h : turnsInRange (absTurns target) = true)
    (raw : BitVec 7) : (s.withTarget target raw).turns = absTurns target := by
  obtain ⟨hmin, hmax⟩ := (turnsInRange_iff _).mp h
  obtain ⟨_, _, hmod, _⟩ := abs_spec target
  exact turnsOf_turnNumberOf hmod (by omega) hmax

/-- The new ZERO lies `target` positions before `raw`, in the direction of counting. -/
theorem State.withTarget_zero_congr (s : State) (target : Int) (raw : BitVec 7) :
    (((s.withTarget target raw).zero.toNat : Int) - (raw.toNat - (if s.reverse then -target else target))) % 128
      = 0 := by
  obtain ⟨hle, hcongr⟩ := absZero_spec s.reverse raw target
  have hzero : (s.withTarget target raw).zero.toNat = absZero s.reverse raw target :=
    (BitVec.toNat_ofNat _ 7).trans (by omega)
  have hdir : dir s.reverse * target = if s.reverse then -target else target := by
    cases s.reverse <;> simp [dir]
  rw [hzero, ← hdir]
  exact hcongr

/-- Settles O35: the commit of an accepted target, with SAVE on the committed registers. -/
theorem setabsRecalibrates : Obligations.SetabsRecalibrates := by
  intro s p raw target hready hpos hmin hmax
  have hrange : turnsInRange (absTurns target) = true := (absTurns_inRange_iff target).mpr ⟨hmin, hmax⟩
  obtain ⟨hlo, hhi, hmod, hsum⟩ := abs_spec target
  have hlast := s.afterBusRead.withTarget_last_toInt target raw
  have hturns := s.afterBusRead.withTarget_turns hrange raw
  refine ⟨(s.afterBusRead.withTarget target raw).zero, (s.afterBusRead.withTarget target raw).last,
    (s.afterBusRead.withTarget target raw).turnNumber, _, _, ?_, ?_, s.afterBusRead.withTarget_zero_congr target raw,
    State.save_cases _, ?_⟩
  · rw [hlast]
    omega
  · rw [hlast]
    exact hturns.trans (by omega)
  · rw [exec_setabs_of_position hready hpos, State.recalibrate_of_inRange hrange]
    rfl

/-- Settles O36: TURNS would leave its range. -/
theorem setabsOverflowCommitsNothing : Obligations.SetabsOverflowCommitsNothing := by
  intro s p raw target hready hpos hout
  have hrange : turnsInRange (absTurns target) = false := by
    rw [← Bool.not_eq_true, absTurns_inRange_iff]
    omega
  rw [exec_setabs_of_position hready hpos, State.recalibrate_of_overflow hrange]
  rfl

/-! ### The frame that SETABS sets (43_calibration R188) -/

/-- The state `t` reports the position `raw` as `target`: LAST is its signed position in the frame of `t`, and TURNS
and LAST add up to the target. -/
structure State.ReportsAs (t : State) (raw : BitVec 7) (target : Int) : Prop where
  ready : t.mode = .ready
  signed : t.IsSigned raw t.last.toInt
  turns_inRange : turnsInRange t.turns = true
  sum_eq : t.turns + t.last.toInt = target

theorem State.isSigned_withTarget (s : State) (target : Int) (raw : BitVec 7) :
    (s.withTarget target raw).IsSigned raw (absLast target) := by
  obtain ⟨hlo, hhi, hmod, hsum⟩ := abs_spec target
  have hzero := s.withTarget_zero_congr target raw
  have hrev : (s.withTarget target raw).reverse = s.reverse := rfl
  refine ⟨hlo, hhi, ?_⟩
  unfold State.rawOffset
  rw [hrev]
  cases hr : s.reverse with
  | true => rw [hr, if_pos rfl] at hzero; rw [if_pos rfl]; omega
  | false => rw [hr, if_neg Bool.false_ne_true] at hzero; rw [if_neg Bool.false_ne_true]; omega

/-- What a successful SETABS leaves. -/
theorem exec_setabs_ok {s t : State} {r : Response} {p : Byte} {raw : BitVec 7} {target : Int}
    (hpos : s.ReadsPosition p raw) (h : exec (.setabs target) s = .next t) (hr : t.response = some r)
    (hok : r.status = .ok) : t.reverse = s.reverse ∧ t.ReportsAs raw target := by
  have hready : s.mode = .ready := by
    rw [exec_setabs] at h
    obtain ⟨hready, _⟩ := State.command_ok h hr hok
    exact hready
  rw [exec_setabs_of_position hready hpos] at h
  cases h
  cases hrange : turnsInRange (absTurns target) with
  | false =>
    rw [State.recalibrate_of_overflow hrange] at hr
    cases hr
    cases hok
  | true =>
    obtain ⟨_, _, _, hsum⟩ := abs_spec target
    have hlast := s.afterBusRead.withTarget_last_toInt target raw
    have hturns := s.afterBusRead.withTarget_turns hrange raw
    have hsigned := s.afterBusRead.isSigned_withTarget target raw
    rw [State.recalibrate_of_inRange hrange]
    refine ⟨State.saveAndRespond_reverse _ _, ⟨(State.saveAndRespond_mode _ _).trans hready, ?_, ?_, ?_⟩⟩
    · rw [State.saveAndRespond_last, hlast]
      exact hsigned.of_same_frame (State.saveAndRespond_reverse _ _) (State.saveAndRespond_zero _ _)
    · rw [State.saveAndRespond_turns, hturns]
      exact hrange
    · rw [State.saveAndRespond_turns, State.saveAndRespond_last, hturns, hlast]
      exact hsum

/-! ### MPOS in that frame (43_calibration R188, R189; 42_multiturn R164) -/

section MposAfterSetabs

variable {t : State} {p' : Byte} {raw raw' : BitVec 7} {target m : Int}

/-- The turn count the detector gives after a motion of at most 63, and the signed position, add up to target + m. -/
theorem State.ReportsAs.rollover_add (h : t.ReportsAs raw target) (hm : -63 ≤ m ∧ m ≤ 63)
    (hmotion : ((raw'.toNat : Int) - (raw.toNat + (if t.reverse then -m else m))) % 128 = 0) :
    rollover t.turns t.last.toInt (t.spos raw') + t.spos raw' = target + m := by
  have hoffset := State.rawOffset_of_motion hmotion
  obtain ⟨hlo, hhi, hcongr⟩ := h.signed
  obtain ⟨hlo', hhi', hcongr'⟩ := t.isSigned_spos raw'
  rw [rollover_add_of_motion ⟨hlo, hhi⟩ ⟨hlo', hhi'⟩ hm (by omega), h.sum_eq]

theorem State.ReportsAs.exec_mpos_answers (h : t.ReportsAs raw target) (hpos : t.ReadsPosition p' raw')
    (hm : -63 ≤ m ∧ m ≤ 63)
    (hmotion : ((raw'.toNat : Int) - (raw.toNat + (if t.reverse then -m else m))) % 128 = 0)
    (hlo : -2147483584 ≤ target + m) (hhi : target + m ≤ 2147483583) :
    ∃ (u : State) (q : Response), exec .mpos t = .next u ∧ u.response = some q ∧ q.status = .ok ∧
      q.data.toInt = target + m := by
  obtain ⟨hmin, hmax⟩ := (turnsInRange_iff _).mp h.turns_inRange
  have hsum := h.sum_eq
  obtain ⟨u, q, hu, hq, hok, hdata, _⟩ := mposTracksShaftMotion t p' raw raw' m h.ready h.signed hpos hm.1 hm.2
    hmotion hmin hmax (by omega) (by omega)
  exact ⟨u, q, hu, hq, hok, by omega⟩

theorem State.ReportsAs.exec_mpos_overflows (h : t.ReportsAs raw target) (hpos : t.ReadsPosition p' raw')
    (hm : -63 ≤ m ∧ m ≤ 63)
    (hmotion : ((raw'.toNat : Int) - (raw.toNat + (if t.reverse then -m else m))) % 128 = 0)
    (hout : target + m < -2147483584 ∨ 2147483583 < target + m) :
    exec .mpos t = .next { t.afterBusRead with
      response := some { status := .turnOverflow, warn := false, data := 0 } } := by
  have hsigned := t.isSigned_spos raw'
  have hadd := h.rollover_add hm hmotion
  obtain ⟨hlo, hhi⟩ := hsigned.range
  have hrange : turnsInRange (rollover t.turns t.last.toInt (t.spos raw')) = false := by
    rw [← Bool.not_eq_true, turnsInRange_iff]
    omega
  rw [exec_mpos_of_position h.ready hpos hsigned, State.accumulate_of_overflow hrange]
  rfl

/-- Without motion MPOS finds LAST again. -/
theorem State.ReportsAs.exec_mpos_same (h : t.ReportsAs raw target) (hpos : t.ReadsPosition p' raw) :
    exec .mpos t = .next { t.afterBusRead with
      response := some { status := .ok, warn := false, data := BitVec.ofInt 32 target } } := by
  obtain ⟨hmin, _⟩ := (turnsInRange_iff _).mp h.turns_inRange
  rw [mposWithoutRollover t p' raw _ h.ready hpos h.signed hmin (by omega) (by omega), h.sum_eq, BitVec.ofInt_toInt]
  rfl

end MposAfterSetabs

/-- Settles O37: SETABS leaves a frame that reports the position read as the target, and MPOS adds the motion to it. -/
theorem setabsThenMposReportsTarget : Obligations.SetabsThenMposReportsTarget := by
  intro s t r p p' raw raw' target m hpos h hr hok hpos' hmlo hmhi hmotion
  obtain ⟨hrev, hreports⟩ := exec_setabs_ok hpos h hr hok
  rw [← hrev] at hmotion
  have hm : -63 ≤ m ∧ m ≤ 63 := ⟨hmlo, hmhi⟩
  refine ⟨hreports.exec_mpos_answers hpos' hm hmotion, hreports.exec_mpos_overflows hpos' hm hmotion, ?_⟩
  rintro rfl
  have hsame : raw' = raw := by
    have hraw := raw.isLt
    have hraw' := raw'.isLt
    apply BitVec.eq_of_toNat_eq
    rw [neg_zero, ite_self] at hmotion
    omega
  exact hreports.exec_mpos_same (hsame ▸ hpos')

end Sys2Proof.Machine
end

-- The frame of the commands (10_state R23 to R29; 43_calibration R181): what each of them leaves as it was.
section

namespace Sys2Proof.Machine

/-- The constants, the configuration, TABLE, MODE, FAIL_CAUSE, the command port, and the coming answers to the requests
that only a reset makes. -/
structure FixedPart where
  trackSpec : Vector Byte 16
  busAddr : Nat
  pinOrder : Vector (BitVec 4) 8
  reverse : Bool
  persistConfigured : Bool
  table : Memory
  mode : Mode
  failCause : FailCause
  host : List HostEvent
  busWrites : List Ack
  storeLoads : List Ack

/-- What no command changes. -/
def State.fixedPart (s : State) : FixedPart :=
  { trackSpec := s.trackSpec
    busAddr := s.busAddr
    pinOrder := s.pinOrder
    reverse := s.reverse
    persistConfigured := s.persistConfigured
    table := s.table
    mode := s.mode
    failCause := s.failCause
    host := s.host
    busWrites := s.busWrites
    storeLoads := s.storeLoads }

theorem State.saveAndRespond_fixedPart (s : State) (d : Word32) :
    (s.saveAndRespond d).fixedPart = s.fixedPart := by
  simp [State.fixedPart]

theorem State.accumulate_fixedPart (s : State) (p t1 : Int) : (s.accumulate p t1).fixedPart = s.fixedPart := by
  rcases s.accumulate_cases p t1 with ⟨_, h⟩ | ⟨_, _, h⟩ | ⟨_, _, h⟩ <;> rw [h]
  · rfl
  · exact State.saveAndRespond_fixedPart _ _
  · rfl

theorem State.recalibrate_fixedPart (s : State) (target : Int) (raw : BitVec 7) :
    (s.recalibrate target raw).fixedPart = s.fixedPart := by
  rcases s.recalibrate_cases target raw with ⟨_, h⟩ | ⟨_, h⟩ <;> rw [h]
  · rfl
  · exact State.saveAndRespond_fixedPart _ _

/-! ### What each command leaves after its reading -/

theorem afterReading_fixedPart (i : Instr) (raw : BitVec 7) (s : State) :
    (afterReading i raw s).fixedPart = s.fixedPart := by
  cases i with
  | raw => rfl
  | upos => rfl
  | spos => rfl
  | mpos => exact s.accumulate_fixedPart _ _
  | setz value => rfl
  | setzc => exact State.saveAndRespond_fixedPart _ _
  | getz => rfl
  | setabs target => exact s.recalibrate_fixedPart _ _

theorem State.accumulate_zero (s : State) (p t1 : Int) : (s.accumulate p t1).zero = s.zero := by
  rcases s.accumulate_cases p t1 with ⟨_, h⟩ | ⟨_, _, h⟩ | ⟨_, _, h⟩ <;> simp [h]

theorem afterReading_zero {i : Instr} (h : writesZero i = false) (raw : BitVec 7) (s : State) :
    (afterReading i raw s).zero = s.zero := by
  cases i with
  | raw => rfl
  | upos => rfl
  | spos => rfl
  | mpos => exact s.accumulate_zero _ _
  | setz value => cases h
  | setzc => cases h
  | getz => rfl
  | setabs target => cases h

/-- The registers of the multi-turn position (10_state R28, R29). -/
def State.multiTurn (s : State) : BitVec 25 × BitVec 8 := (s.turnNumber, s.last)

theorem State.saveAndRespond_multiTurn (s : State) (d : Word32) :
    (s.saveAndRespond d).multiTurn = s.multiTurn := by
  simp [State.multiTurn]

theorem afterReading_multiTurn {i : Instr} (h : writesTurns i = false) (raw : BitVec 7) (s : State) :
    (afterReading i raw s).multiTurn = s.multiTurn := by
  cases i with
  | raw => rfl
  | upos => rfl
  | spos => rfl
  | mpos => cases h
  | setz value => rfl
  | setzc => exact State.saveAndRespond_multiTurn _ _
  | getz => rfl
  | setabs target => cases h

/-- LAST_SAVED, and the store agent's cell and coming answers to saves (10_state R30; 44_persistence R220, R223). -/
def State.saved (s : State) : Option Record × Option Record × List SaveReply :=
  (s.lastSaved, s.storeCell, s.storeSaves)

theorem afterReading_saved {i : Instr} (h : maySave i = false) (raw : BitVec 7) (s : State) :
    (afterReading i raw s).saved = s.saved := by
  cases i with
  | raw => rfl
  | upos => rfl
  | spos => rfl
  | mpos => cases h
  | setz value => cases h
  | setzc => cases h
  | getz => rfl
  | setabs target => cases h

/-! ### The frame of the whole command -/

/-- A part `f` of the state that neither a response nor the command's own work changes is left as it was. The work is
a bus read and what follows the reading, or SETZ's commit; GETZ and the error endings only respond. -/
theorem exec_keeps {α : Type} (f : State → α) {s t : State} {i : Instr} (h : exec i s = .next t)
    (hresponse : ∀ (u : State) (r : Option Response), f { u with response := r } = f u)
    (hbus : readsEncoder i = true → ∀ u : State, f u.afterBusRead = f u)
    (hreading : readsEncoder i = true → ∀ (raw : BitVec 7) (u : State), f (afterReading i raw u) = f u)
    (hsetz : ∀ value, i = .setz value → ∀ u : State,
      f (State.saveAndRespond { u with zero := BitVec.ofNat 7 value } 0) = f u) : f t = f s := by
  rcases exec_cases h with ⟨_, rfl⟩ | ⟨_, hreads, _, rfl⟩ | ⟨_, hreads, p, _, _, rfl⟩ |
    ⟨_, hreads, p, raw, _, _, rfl⟩ | ⟨_, _, rfl⟩ | ⟨_, value, hi, rfl⟩
  · exact hresponse s _
  · exact (hresponse s.afterBusRead _).trans (hbus hreads s)
  · exact (hresponse s.afterBusRead _).trans (hbus hreads s)
  · exact (hreading hreads raw _).trans (hbus hreads s)
  · exact hresponse s _
  · exact hsetz value hi s

section Frame

variable {s t : State} {i : Instr}

theorem exec_fixedPart (h : exec i s = .next t) : t.fixedPart = s.fixedPart :=
  exec_keeps State.fixedPart h (fun _ _ => rfl) (fun _ _ => rfl) (fun _ => afterReading_fixedPart i)
    fun _ _ _ => State.saveAndRespond_fixedPart _ _

theorem exec_zero (h : exec i s = .next t) (hw : writesZero i = false) : t.zero = s.zero :=
  exec_keeps State.zero h (fun _ _ => rfl) (fun _ _ => rfl) (fun _ => afterReading_zero hw)
    fun _ hi => by rw [hi] at hw; cases hw

theorem exec_multiTurn (h : exec i s = .next t) (hw : writesTurns i = false) : t.multiTurn = s.multiTurn :=
  exec_keeps State.multiTurn h (fun _ _ => rfl) (fun _ _ => rfl) (fun _ => afterReading_multiTurn hw)
    fun _ _ _ => State.saveAndRespond_multiTurn _ _

theorem exec_saved (h : exec i s = .next t) (hs : maySave i = false) : t.saved = s.saved :=
  exec_keeps State.saved h (fun _ _ => rfl) (fun _ _ => rfl) (fun _ => afterReading_saved hs)
    fun _ hi => by rw [hi] at hs; cases hs

theorem exec_busReads (h : exec i s = .next t) (hr : readsEncoder i = false) : t.busReads = s.busReads :=
  exec_keeps State.busReads h (fun _ _ => rfl) (fun hr' => Bool.noConfusion (hr.symm.trans hr'))
    (fun hr' => Bool.noConfusion (hr.symm.trans hr')) fun _ _ _ => State.saveAndRespond_busReads _ _

end Frame

/-- Settles O48: each clause is a part of the state that the command's work does not touch. -/
theorem commandFrame : Obligations.CommandFrame := by
  intro s t i h
  have hfixed := exec_fixedPart h
  simp only [State.fixedPart, FixedPart.mk.injEq] at hfixed
  obtain ⟨htrack, haddr, hpins, hrev, hpersist, htable, hmode, hcause, hhost, hwrites, hloads⟩ := hfixed
  have hread : ∀ p : Byte, t.readTable p = s.readTable p := fun p => congrArg (Memory.read · p.toNat) htable
  refine ⟨htrack, haddr, hpins, hrev, hpersist, hread, htable, hmode, hcause, hhost, hwrites, hloads, exec_zero h,
    fun hw => Prod.mk.inj (exec_multiTurn h hw), fun hs => ?_, exec_busReads h⟩
  obtain ⟨hlast, hstore⟩ := Prod.mk.inj (exec_saved h hs)
  exact ⟨hlast, Prod.mk.inj hstore⟩

end Sys2Proof.Machine
end

-- Persistence (44_persistence): how a command meets the store, SETZ given again after a save that failed or succeeded, and
-- the two ways a reset that reached LOAD goes on, from a record or from the default reading.
section

namespace Sys2Proof.Machine

/-! ### How a command meets the store (44_persistence R221, R224, R225) -/

/-- What SAVE goes by besides the record, and the requests made (44_persistence R221, R224). -/
def State.storeSide (s : State) : Bool × Option Record × List Request :=
  (s.persistConfigured, s.lastSaved, s.requests)

theorem State.storeSide_eq_iff {s t : State} : t.storeSide = s.storeSide ↔
    t.persistConfigured = s.persistConfigured ∧ t.lastSaved = s.lastSaved ∧ t.requests = s.requests := by
  simp only [State.storeSide, Prod.mk.injEq]

/-- From `s` the command commits to `u`, which the store does not notice, and ends in `t`: by a response that does not
warn, or by SAVE and its response. -/
def State.Concludes (s t : State) : Prop :=
  ∃ u : State, u.storeSide = s.storeSide ∧
    ((∃ r : Response, r.warn = false ∧ t = { u with response := some r }) ∨ ∃ d, t = u.saveAndRespond d)

theorem State.concludes_raise (s : State) (e : Status) (d : Word32) : s.Concludes (s.raise e d) :=
  ⟨s, rfl, .inl ⟨_, rfl, rfl⟩⟩

section Concludes

variable {s u : State} {d : Word32}

theorem State.concludes_respond (h : u.storeSide = s.storeSide) : s.Concludes (u.respond false d) :=
  ⟨u, h, .inl ⟨_, rfl, rfl⟩⟩

theorem State.concludes_saveAndRespond (h : u.storeSide = s.storeSide) : s.Concludes (u.saveAndRespond d) :=
  ⟨u, h, .inr ⟨d, rfl⟩⟩

end Concludes

theorem State.concludes_accumulate (s : State) (p t1 : Int) : s.Concludes (s.accumulate p t1) := by
  rcases s.accumulate_cases p t1 with ⟨_, h⟩ | ⟨_, _, h⟩ | ⟨_, _, h⟩ <;> rw [h]
  · exact s.concludes_raise _ _
  · exact State.concludes_saveAndRespond rfl
  · exact State.concludes_respond rfl

theorem State.concludes_recalibrate (s : State) (target : Int) (raw : BitVec 7) :
    s.Concludes (s.recalibrate target raw) := by
  rcases s.recalibrate_cases target raw with ⟨_, h⟩ | ⟨_, h⟩ <;> rw [h]
  · exact s.concludes_raise _ _
  · exact State.concludes_saveAndRespond rfl

theorem State.concludes_afterReading {i : Instr} (h : readsEncoder i = true) (raw : BitVec 7) (s : State) :
    s.Concludes (afterReading i raw s) := by
  cases i with
  | raw => exact State.concludes_respond rfl
  | upos => exact State.concludes_respond rfl
  | spos => exact State.concludes_respond rfl
  | mpos => exact s.concludes_accumulate _ _
  | setz value => cases h
  | setzc => exact State.concludes_saveAndRespond (u := { s with zero := raw }) rfl
  | getz => cases h
  | setabs target => exact s.concludes_recalibrate target raw

/-- Every command reads the bus or not, and then concludes. -/
theorem exec_concludes {s t : State} {i : Instr} (h : exec i s = .next t) :
    s.Concludes t ∨ s.afterBusRead.Concludes t := by
  rcases exec_cases h with ⟨_, rfl⟩ | ⟨_, _, _, rfl⟩ | ⟨_, _, p, _, _, rfl⟩ | ⟨_, hreads, p, raw, _, _, rfl⟩ |
    ⟨_, _, rfl⟩ | ⟨_, value, _, rfl⟩
  · exact .inl (s.concludes_raise _ _)
  · exact .inr (s.afterBusRead.concludes_raise _ _)
  · exact .inr (s.afterBusRead.concludes_raise _ _)
  · exact .inr (s.afterBusRead.concludes_afterReading hreads raw)
  · exact .inl (State.concludes_respond rfl)
  · exact .inl (State.concludes_saveAndRespond rfl)

/-- SAVE has nothing to ask where no store is configured or LAST_SAVED is the registers' record (44_persistence R221,
R224). -/
theorem State.save_of_not_needed {s : State} (h : s.persistConfigured = false ∨ s.lastSaved = some s.record) :
    s.save = s ∧ s.saveWarns = false := by
  rcases s.save_cases with ⟨_, hsame, hwarn⟩ | ⟨hp, hne, _⟩ | ⟨hp, hne, _⟩
  · exact ⟨hsame, hwarn⟩
  · simp [hp, hne] at h
  · simp [hp, hne] at h

/-- With no store configured the end of a command asks nothing and does not warn (44_persistence R221). -/
theorem State.Concludes.of_unconfigured {s t : State} (h : s.Concludes t) (hp : s.persistConfigured = false) :
    t.requests = s.requests ∧ ∀ r, t.response = some r → r.warn = false := by
  obtain ⟨u, hside, hend⟩ := h
  obtain ⟨hpersist, _, hrequests⟩ := State.storeSide_eq_iff.mp hside
  rcases hend with ⟨r, hwarn, rfl⟩ | ⟨d, rfl⟩
  · exact ⟨hrequests, fun _ hr => Option.some.inj hr ▸ hwarn⟩
  · obtain ⟨hsave, hwarn⟩ := State.save_of_not_needed (.inl (hpersist.trans hp))
    rw [State.saveAndRespond_requests, State.saveAndRespond_response, hsave, hwarn]
    exact ⟨hrequests, fun _ hr => Option.some.inj hr ▸ rfl⟩

/-- What stands after a StoreSave that succeeded on the registers' record: LAST_SAVED and the store hold it, and the
StoreSave was the last request (44_persistence R220, R225). -/
structure State.JustSaved (t : State) : Prop where
  lastSaved_eq : t.lastSaved = some t.record
  storeCell_eq : t.storeCell = some t.record
  getLast_requests : t.requests.getLast? = some (.storeSave t.record)

/-- The end of a command changes LAST_SAVED only in SAVE, where the StoreSave succeeds. -/
theorem State.Concludes.justSaved {s t : State} (h : s.Concludes t) (hne : t.lastSaved ≠ s.lastSaved) :
    t.JustSaved := by
  obtain ⟨u, hside, hend⟩ := h
  obtain ⟨_, hlast, _⟩ := State.storeSide_eq_iff.mp hside
  rcases hend with ⟨r, _, rfl⟩ | ⟨d, rfl⟩
  · exact absurd hlast hne
  · rw [State.saveAndRespond_lastSaved, ← hlast] at hne
    rcases u.save_cases with ⟨_, hsave, _⟩ | ⟨_, _, _, _, hsave⟩ | ⟨_, _, _, _, _, hsave⟩
    · rw [hsave] at hne; exact absurd rfl hne
    · constructor <;> simp [hsave]
    · rw [hsave] at hne; exact absurd rfl hne

theorem exec_justSaved {s t : State} {i : Instr} (h : exec i s = .next t) (hne : t.lastSaved ≠ s.lastSaved) :
    t.JustSaved :=
  (exec_concludes h).elim (·.justSaved hne) (·.justSaved hne)

/-- Settles O41: a command that changes LAST_SAVED concludes in a SAVE whose StoreSave succeeds. -/
theorem lastSavedChangesOnlyBySaving : Obligations.LastSavedChangesOnlyBySaving := by
  intro s t i h hne
  obtain ⟨hlast, hcell, hrequests⟩ := exec_justSaved h hne
  exact ⟨hlast, hcell, hrequests⟩

/-! ### SETZ given again (44_persistence R227, R228) -/

/-- After SAVE and its response the same SETZ finds its ZERO in place and runs SAVE alone. -/
theorem exec_setz_again {u : State} {value : Nat} (hready : u.mode = .ready) (hzero : u.zero = BitVec.ofNat 7 value) :
    exec (.setz value) (u.saveAndRespond 0) = .next ((u.saveAndRespond 0).saveAndRespond 0) := by
  rw [exec_setz_of_ready ((u.saveAndRespond_mode 0).trans hready), ← hzero, ← u.saveAndRespond_zero 0]

/-- A save that warned has kept LAST_SAVED and is still needed (44_persistence R225, R227). -/
theorem State.save_of_warns {s : State} (h : s.saveWarns = true) :
    s.save.lastSaved = s.lastSaved ∧ s.persistConfigured = true ∧ s.lastSaved ≠ some s.record := by
  rcases s.save_cases with ⟨_, _, hwarn⟩ | ⟨_, _, _, hwarn, _⟩ | ⟨hp, hne, _, _, _, hsave⟩
  · rw [h] at hwarn; cases hwarn
  · rw [h] at hwarn; cases hwarn
  · exact ⟨by rw [hsave], hp, hne⟩

/-- A save that did not warn leaves nothing to save (44_persistence R224, R228). -/
theorem State.save_not_needed_of_not_warns {s : State} (h : s.saveWarns = false) :
    s.save.persistConfigured = false ∨ s.save.lastSaved = some s.save.record := by
  rw [State.save_record, State.save_persistConfigured]
  rcases s.save_cases with ⟨hnone, hsave, _⟩ | ⟨_, _, _, _, hsave⟩ | ⟨_, _, hwarn, _⟩
  · rw [hsave]; exact hnone
  · rw [hsave]; exact .inr rfl
  · rw [h] at hwarn; cases hwarn

/-- A second SAVE with the same response changes nothing after one that did not warn. -/
theorem State.saveAndRespond_again {s : State} (h : s.saveWarns = false) (d : Word32) :
    (s.saveAndRespond d).saveAndRespond d = s.saveAndRespond d := by
  obtain ⟨hsave, hwarn⟩ :=
    State.save_of_not_needed (s := s.saveAndRespond d) (by simpa using State.save_not_needed_of_not_warns h)
  calc (s.saveAndRespond d).saveAndRespond d
      = (s.saveAndRespond d).respond false d := by rw [State.saveAndRespond, hsave, hwarn]
    _ = s.saveAndRespond d := by rw [State.saveAndRespond, h]; rfl

/-- A save that warned is asked for again by the next SAVE. -/
theorem State.save_saveAndRespond_requests_of_warns {s : State} (h : s.saveWarns = true) (d : Word32) :
    (s.saveAndRespond d).save.requests =
      (s.saveAndRespond d).requests ++ [.storeSave (s.saveAndRespond d).record] := by
  obtain ⟨hlast, hp, hne⟩ := State.save_of_warns h
  rw [State.save_requests, if_pos]
  simpa [hlast, hp] using hne

/-- Settles O42: the warning means that SETZ ran and its StoreSave failed, and the record still differs from
LAST_SAVED. -/
theorem failedSaveIsRetried : Obligations.FailedSaveIsRetried := by
  intro s t r value h hr hwarn
  rw [exec_setz] at h
  rcases State.command_cases h with ⟨_, rfl⟩ | ⟨hready, rfl⟩
  · cases hr
    cases hwarn
  · cases hr
    obtain ⟨hlast, _⟩ := State.save_of_warns hwarn
    exact ⟨rfl, State.saveAndRespond_zero _ 0, hlast, _,
      exec_setz_again (u := { s with zero := BitVec.ofNat 7 value }) hready rfl,
      State.save_saveAndRespond_requests_of_warns hwarn 0⟩

/-- Settles O43: the SETZ given again is a second SAVE after one that did not warn. -/
theorem repeatedSaveWritesOnce : Obligations.RepeatedSaveWritesOnce := by
  intro s t value hready h hr
  rw [exec_setz_of_ready hready] at h
  cases h
  have hwarn := congrArg Response.warn (Option.some.inj hr)
  rw [exec_setz_again (u := { s with zero := BitVec.ofNat 7 value }) hready rfl, State.saveAndRespond_again hwarn]

/-! ### The reset sequence from LOAD on (44_persistence R226; 70_reset R281) -/

section Default

variable (busAddr : Nat) (read : BusReply) (r : Registers) (w : Bool) (qs : List Request)

/-- Whatever the default reading gives, it is one bus read that keeps TABLE, LAST_SAVED and LOAD's warning. -/
theorem bootDefault_frame :
    (bootDefault busAddr read r w qs).requests = qs ++ [.busRead busAddr] ∧
    (bootDefault busAddr read r w qs).registers.table = r.table ∧
    (bootDefault busAddr read r w qs).registers.lastSaved = r.lastSaved ∧
    (bootDefault busAddr read r w qs).response.warn = w := by
  rcases bootDefault_cases busAddr read r w qs with ⟨_, h⟩ | ⟨p, _, _, h⟩ | ⟨p, raw, _, _, h⟩ <;> rw [h] <;>
    exact ⟨rfl, rfl, rfl, rfl⟩

variable {busAddr read r w qs}

theorem bootDefault_of_none {p : Byte} (h : lookupRaw r.table p = none) :
    bootDefault busAddr (.byte p) r w qs = bootFail r .decode .decodeError w (qs ++ [.busRead busAddr]) := by
  simp only [bootDefault, h]

theorem bootDefault_of_some {p : Byte} {raw : BitVec 7} (h : lookupRaw r.table p = some raw) :
    bootDefault busAddr (.byte p) r w qs = bootReady r raw 0 w (qs ++ [.busRead busAddr]) := by
  simp only [bootDefault, h]

end Default

/-- The requests of a reset up to LOAD (70_reset R281). -/
def State.requestsToLoad (s : State) (inputs : ConfigInputs) : List Request :=
  [.busWrite s.busAddr busConfigureByte] ++ (if inputs.persistConfigured then [.storeLoad] else [])

section Load

variable {s : State} {inputs : ConfigInputs} (hpins : legalPinOrder inputs.pinOrder = true)
  (htrack : legalTrack s.trackSpec = true) (hwrite : s.nextBusWrite = .ok)

include hpins htrack hwrite

/-- A reset of a legal configuration whose bus write succeeds goes on to LOAD. -/
theorem State.bootResult_of_write :
    s.bootResult inputs = bootCalibrate s.busAddr inputs.persistConfigured s.bootAnswers
      (s.registers.built s.trackSpec inputs) [.busWrite s.busAddr busConfigureByte] := by
  have hanswer : s.bootAnswers.write = .ok := hwrite
  simp [State.bootResult, boot, hpins, htrack, hanswer, Registers.built]

theorem State.bootResult_of_loaded {rec : Record}
    (hload : loadedRecord inputs.persistConfigured s.nextStoreLoad = some rec) :
    s.bootResult inputs =
      bootReady { s.registers.built s.trackSpec inputs with lastSaved := some rec } (rec.zero.setWidth 7)
        (turnNumberOf rec.turns.toInt) (loadWarns inputs.persistConfigured s.nextStoreLoad)
        (s.requestsToLoad inputs) := by
  have hanswer : loadedRecord inputs.persistConfigured s.bootAnswers.load = some rec := hload
  rw [State.bootResult_of_write hpins htrack hwrite, bootCalibrate, hanswer]
  rfl

theorem State.bootResult_of_not_loaded (hload : loadedRecord inputs.persistConfigured s.nextStoreLoad = none)
    {read : BusReply} (hread : s.nextBusRead = read) :
    s.bootResult inputs =
      bootDefault s.busAddr read (s.registers.built s.trackSpec inputs)
        (loadWarns inputs.persistConfigured s.nextStoreLoad) (s.requestsToLoad inputs) := by
  have hanswer : loadedRecord inputs.persistConfigured s.bootAnswers.load = none := hload
  rw [← hread, State.bootResult_of_write hpins htrack hwrite, bootCalibrate, hanswer]
  rfl

/-- A reset that loads a record the registers can hold, on a state: the registers of the record, READY. -/
theorem State.runReset_of_record (hpersist : inputs.persistConfigured = true) {rec : Record}
    (hload : s.nextStoreLoad = .found rec) (hvalid : validRecord rec = true) :
    s.runReset inputs = { s with
      pinOrder := inputs.pinOrder
      reverse := inputs.reverse
      persistConfigured := true
      table := build s.trackSpec inputs.pinOrder
      zero := rec.zero.setWidth 7
      turnNumber := turnNumberOf rec.turns.toInt
      last := 0
      lastSaved := some rec
      mode := .ready
      failCause := .none
      busWrites := s.busWrites.tail
      storeLoads := s.storeLoads.tail
      requests := s.requests ++ [.busWrite s.busAddr 0xFF, .storeLoad]
      response := some { status := .ok, warn := false, data := 0 } } := by
  have hloaded : loadedRecord inputs.persistConfigured s.nextStoreLoad = some rec := by
    simp [loadedRecord, hpersist, hload, hvalid]
  have hwarns : loadWarns inputs.persistConfigured s.nextStoreLoad = false := by
    simp [loadWarns, hpersist, hload, hvalid]
  unfold State.runReset
  rw [State.bootResult_of_loaded hpins htrack hwrite hloaded, hwarns, State.requestsToLoad, hpersist]
  simp [bootReady, Registers.built, State.issue, busConfigureByte]

end Load

/-! ### A reset with a record to restore (44_persistence R226; 70_reset R281, R282) -/

/-- The ZERO and TURNS a reset takes from a valid record have the record's values. -/
theorem restored_values {rec : Record} (h : validRecord rec = true) :
    (rec.zero.setWidth 7).toNat = rec.zero.toNat ∧ turnsOf (turnNumberOf rec.turns.toInt) = rec.turns.toInt := by
  obtain ⟨hzero, hmod, hmin, hmax⟩ := (validRecord_iff rec).mp h
  refine ⟨?_, turnsOf_turnNumberOf hmod (by omega) hmax⟩
  rw [BitVec.toNat_setWidth]
  omega

/-- Settles O52: LOAD returns the record, since the registers can hold it. -/
theorem resetRestoresTheRecord : Obligations.ResetRestoresTheRecord := by
  intro s inputs rest rec hhost hpins htrack hwrite hpersist hload hzero hmod hmin hmax
  have hvalid : validRecord rec = true := (validRecord_iff rec).mpr ⟨hzero, hmod, hmin, hmax⟩
  obtain ⟨hz, hn⟩ := restored_values hvalid
  refine ⟨rec.zero.setWidth 7, turnNumberOf rec.turns.toInt, hz, hn, ?_⟩
  rw [step_reset hhost,
    State.runReset_of_record (s := { s with host := rest }) hpins htrack hwrite hpersist hload hvalid]

/-- The record of SAVE restores the registers it was taken from (44_persistence R224, R226). -/
theorem State.restored_record (s : State) :
    s.record.zero.setWidth 7 = s.zero ∧ turnNumberOf s.record.turns.toInt = s.turnNumber := by
  have hturns : s.record.turns.toInt = turnsOf s.turnNumber := turnsWord_toInt s.turnNumber
  refine ⟨?_, by rw [hturns, turnNumberOf_turnsOf]⟩
  apply BitVec.eq_of_toNat_eq
  have hlt := s.zero.isLt
  simp only [State.record, BitVec.toNat_setWidth]
  omega

/-- A StoreLoad that the agent serves returns the record its cell holds (44_persistence R220; log 5). -/
theorem State.nextStoreLoad_of_cell {s : State} {rec : Record} (hcell : s.storeCell = some rec)
    (hserved : s.nextStoreLoad ≠ .fail) : s.nextStoreLoad = .found rec := by
  have hreply : ∀ served, loadReplyOf s.storeCell served ≠ .fail → loadReplyOf s.storeCell served = .found rec := by
    rintro (_ | _) h
    · simp [loadReplyOf, hcell]
    · exact absurd rfl h
  unfold State.nextStoreLoad at hserved ⊢
  split at hserved <;> exact hreply _ hserved

/-- A command leaves a calibrated READY block calibrated and READY. -/
theorem exec_keeps_calibrated {s t : State} {i : Instr} (hready : s.mode = .ready) (hs : s.Calibrated)
    (h : exec i s = .next t) : t.Calibrated :=
  (exec_keeps_inv (hs.inv hready) h).calibrated ((congrArg FixedPart.mode (exec_fixedPart h)).trans hready)

/-- Settles O44: the saved record is the registers' own, which a calibrated block's LOAD accepts. -/
theorem savedCalibrationSurvivesReset : Obligations.SavedCalibrationSurvivesReset := by
  intro s t i inputs hready hs h hne hpins hpersist hwrite hserved
  obtain ⟨hturns, _, _, htrack, _⟩ := exec_keeps_calibrated hready hs h
  have hload := State.nextStoreLoad_of_cell (exec_justSaved h hne).storeCell_eq hserved
  obtain ⟨hzero, hnumber⟩ := t.restored_record
  rw [State.runReset_of_record hpins htrack hwrite hpersist hload (State.validRecord_record hturns)]
  exact ⟨rfl, hzero, congrArg turnsOf hnumber, rfl, rfl, rfl, rfl⟩

/-! ### A reset without a record (44_persistence R226; 92 D17, D20, D21) -/

theorem loadedRecord_unconfigured (reply : LoadReply) : loadedRecord false reply = none := rfl

theorem loadWarns_unconfigured (reply : LoadReply) : loadWarns false reply = false := rfl

theorem validRecord_eq_false_of {rec : Record} (h : 127 < rec.zero.toNat ∨ rec.turns.toInt % 128 ≠ 0 ∨
    rec.turns.toInt < turnsMin ∨ turnsMax < rec.turns.toInt) : validRecord rec = false := by
  rw [← Bool.not_eq_true, validRecord_iff]
  unfold turnsMin turnsMax at h
  omega

/-- What a reset with no store configured leaves: bus requests only, LAST_SAVED None, no warning (44_persistence
R221). -/
theorem boot_unconfigured (track : Vector Byte 16) (busAddr : Nat) {inputs : ConfigInputs}
    (hpersist : inputs.persistConfigured = false) (a : BootAnswers) (r : Registers) :
    (∀ q ∈ (boot track busAddr inputs a r).requests, q = .busRead busAddr ∨ q = .busWrite busAddr 0xFF) ∧
    (boot track busAddr inputs a r).registers.lastSaved = none ∧
    (boot track busAddr inputs a r).response.warn = false := by
  rcases boot_cases track busAddr inputs a r with ⟨_, h⟩ | ⟨_, _, ⟨_, h⟩ | ⟨_, rec, hload, _⟩ | ⟨_, _, h⟩⟩
  · rw [h]
    exact ⟨nofun, rfl, rfl⟩
  · rw [h]
    exact ⟨fun q hq => .inr (List.mem_singleton.mp hq), rfl, rfl⟩
  · rw [hpersist, loadedRecord_unconfigured] at hload
    cases hload
  · rw [h, hpersist, loadWarns_unconfigured]
    obtain ⟨hrequests, _, hlast, hwarn⟩ := bootDefault_frame busAddr a.read (r.built track inputs) false
      ([.busWrite busAddr busConfigureByte] ++ (if false then [.storeLoad] else []))
    rw [hrequests]
    refine ⟨fun q hq => ?_, hlast, hwarn⟩
    simpa [or_comm, busConfigureByte] using hq

/-- Settles O40: a command's one way to the store is SAVE, and a reset's is LOAD; neither asks an unconfigured one. -/
theorem unconfiguredStoreIsNeverAsked : Obligations.UnconfiguredStoreIsNeverAsked := by
  refine ⟨fun s t i hp h => ?command, fun s inputs hpersist => ?reset⟩
  case command =>
    rcases exec_concludes h with hc | hc
    · obtain ⟨hrequests, hwarn⟩ := hc.of_unconfigured hp
      exact ⟨⟨0, hrequests.trans (List.append_nil _).symm⟩, hwarn⟩
    · obtain ⟨hrequests, hwarn⟩ := hc.of_unconfigured hp
      exact ⟨⟨1, hrequests⟩, hwarn⟩
  case reset =>
    obtain ⟨hrequests, hlast, hwarn⟩ := boot_unconfigured s.trackSpec s.busAddr hpersist s.bootAnswers s.registers
    exact ⟨⟨_, s.runReset_requests inputs, hrequests⟩, hlast, fun r hr => Option.some.inj hr ▸ hwarn⟩

/-- A reset that fails leaves its cause and its status, and the ZERO and TURNS it ended with. -/
theorem State.runReset_of_bootFail {s : State} {inputs : ConfigInputs} {r : Registers} {cause : FailCause}
    {status : Status} {w : Bool} {qs : List Request} (h : s.bootResult inputs = bootFail r cause status w qs) :
    (s.runReset inputs).mode = .failed ∧ (s.runReset inputs).failCause = cause ∧ (s.runReset inputs).zero = r.zero ∧
    (s.runReset inputs).turnNumber = r.turnNumber ∧
    (s.runReset inputs).response = some { status := status, warn := w, data := 0 } := by
  simp [h, bootFail]

/-- A reset that ends READY without a record counts from the position it was given. -/
theorem State.runReset_of_bootReady {s : State} {inputs : ConfigInputs} {r : Registers} {raw : BitVec 7} {w : Bool}
    {qs : List Request} (h : s.bootResult inputs = bootReady r raw 0 w qs) :
    (s.runReset inputs).mode = .ready ∧ (s.runReset inputs).failCause = .none ∧ (s.runReset inputs).zero = raw ∧
    (s.runReset inputs).turns = 0 ∧ (s.runReset inputs).last = 0 ∧
    (s.runReset inputs).response = some { status := .ok, warn := w, data := 0 } := by
  simp [h, bootReady, State.turns, turnsOf]

/-- The four ways to have no record to restore, and whether LOAD warns (44_persistence R221, R226). -/
theorem load_without_record {persist w : Bool} {reply : LoadReply}
    (h : (persist = false ∧ w = false) ∨ (persist = true ∧ reply = .absent ∧ w = false) ∨
      (persist = true ∧ reply = .fail ∧ w = true) ∨
      (persist = true ∧ w = true ∧ ∃ rec, reply = .found rec ∧
        (127 < rec.zero.toNat ∨ rec.turns.toInt % 128 ≠ 0 ∨ rec.turns.toInt < turnsMin ∨
          turnsMax < rec.turns.toInt))) :
    loadedRecord persist reply = none ∧ loadWarns persist reply = w := by
  rcases h with ⟨rfl, rfl⟩ | ⟨rfl, rfl, rfl⟩ | ⟨rfl, rfl, rfl⟩ | ⟨rfl, rfl, rec, rfl, hout⟩
  · exact ⟨rfl, rfl⟩
  · exact ⟨rfl, rfl⟩
  · exact ⟨rfl, rfl⟩
  · simp [loadedRecord, loadWarns, validRecord_eq_false_of hout]

/-- Settles O53: LOAD returns no record in each of the four cases, so the reset ends in the default reading. -/
theorem resetDefaultsToTheReading : Obligations.ResetDefaultsToTheReading := by
  intro s inputs rest w hhost hpins htrack hwrite hcase
  obtain ⟨hnone, rfl⟩ := load_without_record hcase
  have hboot := @State.bootResult_of_not_loaded { s with host := rest } inputs hpins htrack hwrite hnone
  obtain ⟨hrequests, htable, hlast, _⟩ := (hboot rfl) ▸ bootDefault_frame _ _ _ _ _
  refine ⟨_, step_reset hhost, State.runReset_host _ _, rfl, rfl, rfl, htable, hlast, State.runReset_storeCell _ _, ?_,
    fun hfail => ?_, fun p hp hentry => ?_, fun p raw hp hentry => ?_⟩
  · rw [State.runReset_requests, hrequests, State.requestsToLoad]
    simp [busConfigureByte]
  · obtain ⟨hmode, hcause, _, _, hresponse⟩ := State.runReset_of_bootFail (hboot hfail)
    exact ⟨hmode, hcause, hresponse⟩
  · have hlookup := (lookupRaw_eq_none_iff _ p).mpr hentry
    exact State.runReset_of_bootFail ((hboot hp).trans (bootDefault_of_none (htable ▸ hlookup)))
  · have hlookup := lookupRaw_eq_some_of hentry
    exact State.runReset_of_bootReady ((hboot hp).trans (bootDefault_of_some (htable ▸ hlookup)))

end Sys2Proof.Machine
end

-- Exceptions (60_exceptions): every request ends in a response, what an error leaves, what each command may report, the
-- FAILED block, and the two patterns that are no position.
section

namespace Sys2Proof.Machine

/-! ### Every word is a command's body behind the MODE check (60_exceptions R243, R248) -/

theorem exec_eq_command (i : Instr) (s : State) : ∃ body, exec i s = s.command body := by
  cases i with
  | raw => exact ⟨_, exec_raw s⟩
  | upos => exact ⟨_, exec_upos s⟩
  | spos => exact ⟨_, exec_spos s⟩
  | mpos => exact ⟨_, exec_mpos s⟩
  | setz value => exact ⟨_, exec_setz s value⟩
  | setzc => exact ⟨_, exec_setzc s⟩
  | getz => exact ⟨_, exec_getz s⟩
  | setabs target => exact ⟨_, exec_setabs s target⟩

theorem State.runWord_eq_command (s : State) (w : CommandWord) : ∃ body, s.runWord w = s.command body := by
  cases hdec : decode w with
  | ok i => rw [State.runWord_of_ok hdec]; exact exec_eq_command i s
  | error e => rw [State.runWord_of_error hdec]; exact ⟨_, rfl⟩

/-- A word runs as the command it decodes to, or does no more than raise an error. -/
theorem State.runWord_cases {s t : State} {w : CommandWord} (h : s.runWord w = .next t) :
    (∃ i, exec i s = .next t) ∨ ∃ e d, t = s.raise e d := by
  cases hdec : decode w with
  | ok i => exact .inl ⟨i, State.runWord_of_ok hdec ▸ h⟩
  | error e =>
    rw [State.runWord_of_error hdec] at h
    rcases State.command_cases h with ⟨_, ht⟩ | ⟨_, ht⟩
    · exact .inr ⟨_, _, ht⟩
    · exact .inr ⟨_, _, ht⟩

/-- Settles O9: the MODE check answers before the word's body runs, and DATA is the code of FAIL_CAUSE. -/
theorem failedBlockAnswersNotReady : Obligations.FailedBlockAnswersNotReady := by
  intro s w rest hhost hfailed
  obtain ⟨body, hbody⟩ := State.runWord_eq_command { s with host := rest } w
  rw [step_command hhost, hbody, State.command_failed (s := { s with host := rest }) hfailed]
  unfold State.raise
  cases s.failCause <;> rfl

/-! ### How a command ends (60_exceptions R241, R242, R244) -/

/-- The command `i` ended in `t` with STATUS = OK, and warned only if it may call SAVE. -/
def State.AnswersOk (i : Instr) (t : State) : Prop :=
  ∃ (w : Bool) (d : Word32), t.response = some { status := .ok, warn := w, data := d } ∧
    (w = true → maySave i = true)

theorem State.answersOk_respond (i : Instr) (s : State) (d : Word32) : (s.respond false d).AnswersOk i :=
  ⟨false, d, rfl, Bool.noConfusion⟩

theorem State.answersOk_saveAndRespond {i : Instr} (h : maySave i = true) (s : State) (d : Word32) :
    (s.saveAndRespond d).AnswersOk i :=
  ⟨s.saveWarns, d, rfl, fun _ => h⟩

theorem State.accumulate_answers (s : State) (p t1 : Int) :
    (s.accumulate p t1).AnswersOk .mpos ∨ s.accumulate p t1 = s.raise .turnOverflow 0 := by
  rcases s.accumulate_cases p t1 with ⟨_, h⟩ | ⟨_, _, h⟩ | ⟨_, _, h⟩
  · exact .inr h
  · rw [h]; exact .inl (State.answersOk_saveAndRespond rfl _ _)
  · rw [h]; exact .inl (State.answersOk_respond _ _ _)

theorem State.recalibrate_answers (s : State) (target : Int) (raw : BitVec 7) :
    (s.recalibrate target raw).AnswersOk (.setabs target) ∨ s.recalibrate target raw = s.raise .turnOverflow 0 := by
  rcases s.recalibrate_cases target raw with ⟨_, h⟩ | ⟨_, h⟩
  · exact .inr h
  · rw [h]; exact .inl (State.answersOk_saveAndRespond rfl _ _)

/-- A valid reading leaves one error: the overflow of the commands that write TURNS (42_multiturn R164; 43_calibration
R189). -/
theorem afterReading_answers {i : Instr} (h : readsEncoder i = true) (raw : BitVec 7) (s : State) :
    (afterReading i raw s).AnswersOk i ∨
    (writesTurns i = true ∧ afterReading i raw s = s.raise .turnOverflow 0) := by
  cases i with
  | raw => exact .inl (State.answersOk_respond _ _ _)
  | upos => exact .inl (State.answersOk_respond _ _ _)
  | spos => exact .inl (State.answersOk_respond _ _ _)
  | mpos => exact (s.accumulate_answers _ _).imp_right fun ha => ⟨rfl, ha⟩
  | setz value => cases h
  | setzc => exact .inl (State.answersOk_saveAndRespond rfl _ _)
  | getz => cases h
  | setabs target => exact (s.recalibrate_answers target raw).imp_right fun ha => ⟨rfl, ha⟩

/-- Every command answers: OK, or one of its errors, raised before or after its one bus read and before any commit. -/
theorem exec_answers {s t : State} {i : Instr} (h : exec i s = .next t) :
    t.AnswersOk i ∨
    ∃ e d, e ≠ .ok ∧ mayReport i e = true ∧ (t = s.raise e d ∨ t = s.afterBusRead.raise e d) := by
  rcases exec_cases h with ⟨_, ht⟩ | ⟨_, hreads, _, ht⟩ | ⟨_, hreads, p, _, _, ht⟩ | ⟨_, hreads, p, raw, _, _, rfl⟩ |
    ⟨_, _, rfl⟩ | ⟨_, value, rfl, rfl⟩
  · exact .inr ⟨.notReady, _, nofun, rfl, .inl ht⟩
  · exact .inr ⟨.busError, _, nofun, hreads, .inr ht⟩
  · exact .inr ⟨.decodeError, _, nofun, hreads, .inr ht⟩
  · exact (afterReading_answers hreads raw s.afterBusRead).imp_right fun ⟨hturns, ha⟩ =>
      ⟨.turnOverflow, _, nofun, hturns, .inr ha⟩
  · exact .inl (State.answersOk_respond _ _ _)
  · exact .inl (State.answersOk_saveAndRespond rfl _ _)

/-- Settles O45: an error is raised from the state before the command, or from the one after its bus read. -/
theorem errorsCommitNothing : Obligations.ErrorsCommitNothing := by
  intro s t i r h hr hne
  rcases exec_answers h with ⟨w, d, hok, _⟩ | ⟨e, d, _, _, rfl | rfl⟩
  · rw [hok] at hr; cases hr; exact absurd rfl hne
  · cases hr; exact ⟨rfl, .inl rfl⟩
  · cases hr; exact ⟨rfl, .inr rfl⟩

/-- Settles O46: every command may report OK, and the errors it raises are its own and do not warn. -/
theorem commandsReportTheirStatuses : Obligations.CommandsReportTheirStatuses := by
  intro s t i r h hr
  rcases exec_answers h with ⟨w, d, hok, hwarn⟩ | ⟨e, d, _, hreport, rfl | rfl⟩
  · rw [hok] at hr; cases hr; exact ⟨rfl, hwarn⟩
  · cases hr; exact ⟨hreport, Bool.noConfusion⟩
  · cases hr; exact ⟨hreport, Bool.noConfusion⟩

/-! ### Every request is answered (60_exceptions R248; 70_reset R296) -/

theorem exec_responds {s t : State} {i : Instr} (h : exec i s = .next t) : ∃ r, t.response = some r := by
  rcases exec_answers h with ⟨_, _, hr, _⟩ | ⟨_, _, _, _, rfl | rfl⟩
  · exact ⟨_, hr⟩
  · exact ⟨_, rfl⟩
  · exact ⟨_, rfl⟩

theorem State.runWord_responds {s t : State} {w : CommandWord} (h : s.runWord w = .next t) :
    ∃ r, t.response = some r := by
  rcases State.runWord_cases h with ⟨i, hexec⟩ | ⟨e, d, rfl⟩
  · exact exec_responds hexec
  · exact ⟨_, rfl⟩

/-- Settles O57: a command goes on whatever its body, and both a command and a reset end in a response. -/
theorem everyRequestIsAnswered : Obligations.EveryRequestIsAnswered := by
  intro s
  cases hhost : s.host with
  | nil => exact ⟨s, step_idle hhost, fun hne => absurd rfl hne⟩
  | cons event rest =>
    cases event with
    | command w =>
      obtain ⟨body, hbody⟩ := State.runWord_eq_command { s with host := rest } w
      exact ⟨_, (step_command hhost).trans hbody, fun _ => State.runWord_responds hbody⟩
    | reset inputs => exact ⟨_, step_reset hhost, fun _ => ⟨_, rfl⟩⟩

/-! ### What only a reset changes (60_exceptions R243; 70_reset R280) -/

theorem State.runWord_fixedPart {s t : State} {w : CommandWord} (h : s.runWord w = .next t) :
    t.fixedPart = s.fixedPart := by
  rcases State.runWord_cases h with ⟨i, hexec⟩ | ⟨e, d, rfl⟩
  · exact exec_fixedPart hexec
  · rfl

/-- Settles O49: an idle step changes nothing, a word nothing of the fixed part, and a reset neither constant. -/
theorem onlyResetLeavesFailed : Obligations.OnlyResetLeavesFailed := by
  intro s t h
  cases hhost : s.host with
  | nil => rw [step_idle hhost] at h; cases h; simp
  | cons event rest =>
    cases event with
    | command w =>
      rw [step_command hhost] at h
      have hfixed := State.runWord_fixedPart h
      simp only [State.fixedPart, FixedPart.mk.injEq] at hfixed
      obtain ⟨htrack, haddr, hpins, hrev, hpersist, htable, hmode, _⟩ := hfixed
      exact ⟨htrack, haddr, fun hchange => by simp [htable, hmode, hpins, hrev, hpersist] at hchange⟩
    | reset inputs =>
      rw [step_reset hhost] at h
      cases h
      exact ⟨State.runReset_trackSpec _ _, State.runReset_busAddr _ _, fun _ => ⟨inputs, rest, rfl⟩⟩

/-! ### All lines low and all lines high (40_table_builder R110) -/

/-- Every phase has one 16 positions further on around the track, the first after the last. -/
theorem exists_phase_ahead :
    ∀ phase : BitVec 4, ∃ ahead ∈ identityWiring.toList, ahead.toNat = phase.toNat % 8 + 1 := by
  decide

/-- What a pin reads 16 positions further on, some pin reads at the position itself. -/
theorem exists_pin_ahead (track : Vector Byte 16) {order : Vector (BitVec 4) 8} (ho : legalPinOrder order = true)
    (pos : Nat) (pin : Fin 8) : ∃ pin' : Fin 8,
      (pattern track order ((pos + 16) % 128)).getLsbD pin.val = (pattern track order pos).getLsbD pin'.val := by
  obtain ⟨hlo, hhi⟩ := phase_range_of_legalPinOrder ho pin
  obtain ⟨ahead, hmem, hahead⟩ := exists_phase_ahead order[pin]
  obtain ⟨pin', rfl⟩ := exists_pin_of_legalPinOrder ho hmem
  refine ⟨pin', ?_⟩
  rw [pattern_getLsbD, pattern_getLsbD, phaseBit_eq_trackBit track _ hlo, phaseBit_eq_trackBit track pos (by omega)]
  congr 1
  omega

/-- A pattern with all lines alike would be the pattern of two positions, 16 apart. -/
theorem pattern_ne_of_lines_alike {track : Vector Byte 16} {order : Vector (BitVec 4) 8}
    (ht : legalTrack track = true) (ho : legalPinOrder order = true) {p : Byte} {line : Bool}
    (hp : ∀ pin : Fin 8, p.getLsbD pin.val = line) {pos : Nat} (hpos : pos < 128) : pattern track order pos ≠ p := by
  rintro rfl
  have hsame : pattern track order ((pos + 16) % 128) = pattern track order pos := by
    refine BitVec.eq_of_getLsbD_eq fun k hk => ?_
    obtain ⟨pin', h⟩ := exists_pin_ahead track ho pos ⟨k, hk⟩
    rw [h, hp pin', hp ⟨k, hk⟩]
  have heq := pattern_injective ht ho (Nat.mod_lt _ (by decide)) hpos hsame
  omega

theorem build_read_of_lines_alike {track : Vector Byte 16} {order : Vector (BitVec 4) 8}
    (ht : legalTrack track = true) (ho : legalPinOrder order = true) {p : Byte} {line : Bool}
    (hp : ∀ pin : Fin 8, p.getLsbD pin.val = line) : (build track order).read p.toNat = 255 :=
  (build_read_eq_sentinel_iff track order p).mpr fun _ hpos => pattern_ne_of_lines_alike ht ho hp hpos

theorem build_read_all_high {track : Vector Byte 16} {order : Vector (BitVec 4) 8}
    (ht : legalTrack track = true) (ho : legalPinOrder order = true) : (build track order).read 0xFF = 255 :=
  build_read_of_lines_alike (p := 0xFF) (line := true) ht ho (by decide)

/-- Settles O13: neither pattern is a position's, so both entries keep the sentinel, which ends the command. -/
theorem allLowAndAllHighAreSentinels : Obligations.AllLowAndAllHighAreSentinels := by
  refine ⟨fun track order ht ho => ⟨?low, build_read_all_high ht ho⟩, fun s i hready hs hbus hreads => ?bus⟩
  case low => exact build_read_of_lines_alike (p := 0x00) (line := false) ht ho (by decide)
  case bus =>
    have htable := hs.table_eq
    obtain ⟨_, _, hpins, htrack, _⟩ := hs
    have hentry : s.readTable 0xFF = 255 := by
      unfold State.readTable
      rw [htable]
      exact build_read_all_high htrack hpins
    exact sentinelEndsTheCommand s i 0xFF hready hreads hbus hentry

end Sys2Proof.Machine
end

-- The reset whose bus write fails (70_reset R281; 92 D22).
section

namespace Sys2Proof.Machine

/-- The reset sequence stops at its bus write, after BUILD and before LOAD. -/
theorem boot_of_write_fail {track : Vector Byte 16} {inputs : ConfigInputs} {a : BootAnswers}
    (hpins : legalPinOrder inputs.pinOrder = true) (htrack : legalTrack track = true) (hwrite : a.write = .fail)
    (busAddr : Nat) (r : Registers) :
    boot track busAddr inputs a r =
      bootFail (r.built track inputs) .bus .busError false [.busWrite busAddr busConfigureByte] := by
  rcases boot_cases track busAddr inputs a r with ⟨hmalformed, _⟩ | ⟨_, _, ⟨_, hb⟩ | ⟨hok, _⟩ | ⟨hok, _⟩⟩
  · rw [hpins, htrack] at hmalformed; cases hmalformed
  · exact hb
  · exact Ack.noConfusion (hwrite.symm.trans hok)
  · exact Ack.noConfusion (hwrite.symm.trans hok)

/-- A reset whose bus write fails, on a state: TABLE is built, the calibration registers are kept (log 8), and the bus
write is the one request. -/
theorem State.runReset_of_write_fail {s : State} {inputs : ConfigInputs}
    (hpins : legalPinOrder inputs.pinOrder = true) (htrack : legalTrack s.trackSpec = true)
    (hwrite : s.nextBusWrite = .fail) :
    s.runReset inputs = { s with
      pinOrder := inputs.pinOrder
      reverse := inputs.reverse
      persistConfigured := inputs.persistConfigured
      table := build s.trackSpec inputs.pinOrder
      lastSaved := none
      mode := .failed
      failCause := .bus
      busWrites := s.busWrites.tail
      requests := s.requests ++ [.busWrite s.busAddr 0xFF]
      response := some { status := .busError, warn := false, data := 0 } } := by
  have hb : s.bootResult inputs =
      bootFail (s.registers.built s.trackSpec inputs) .bus .busError false [.busWrite s.busAddr busConfigureByte] :=
    boot_of_write_fail (a := s.bootAnswers) hpins htrack hwrite s.busAddr s.registers
  unfold State.runReset
  rw [hb]
  rfl

/-- Settles O51: the step is the reset sequence, which the failed bus write ends. -/
theorem resetFailsOnBusWrite : Obligations.ResetFailsOnBusWrite := by
  intro s inputs rest hhost hpins htrack hwrite
  rw [step_reset hhost, State.runReset_of_write_fail (s := { s with host := rest }) hpins htrack hwrite]

end Sys2Proof.Machine
end

-- The legality of a track (40_table_builder R104; 92 D10): the same under every wiring, and as a test of rotations; and
-- the idle step (60_exceptions R260, R267).
section

namespace Sys2Proof.Machine

/-! ### The idle step (60_exceptions R260, R267) -/

/-- Settles O10: the step takes no request from an empty list. -/
theorem idleBlockDoesNothing : Obligations.IdleBlockDoesNothing := fun _ => step_idle

/-! ### Legality under any wiring (40_table_builder R104; 92 D10) -/

theorem mem_identityWiring_of_legalPinOrder {order : Vector (BitVec 4) 8} (h : legalPinOrder order = true)
    (pin : Fin 8) : order[pin] ∈ identityWiring.toList := by
  have hvalues : ∀ v : BitVec 4, 1 ≤ v.toNat ∧ v.toNat ≤ 8 → v ∈ identityWiring.toList := by decide
  exact hvalues order[pin] (phase_range_of_legalPinOrder h pin)

/-- The converse of `pattern_identity_eq_of_eq`: each pin reads a phase that the identity wiring gives some pin. -/
theorem pattern_eq_of_identity_eq {track : Vector Byte 16} {order : Vector (BitVec 4) 8} {pos pos' : Nat}
    (ho : legalPinOrder order = true) (h : pattern track identityWiring pos = pattern track identityWiring pos') :
    pattern track order pos = pattern track order pos' := by
  refine BitVec.eq_of_getLsbD_eq fun k hk => ?_
  obtain ⟨pin, hpin⟩ :=
    exists_pin_of_legalPinOrder (order := identityWiring) (by decide) (mem_identityWiring_of_legalPinOrder ho ⟨k, hk⟩)
  have hphase : phaseBit track pos order[(⟨k, hk⟩ : Fin 8)] = phaseBit track pos' order[(⟨k, hk⟩ : Fin 8)] := by
    rw [← hpin, ← pattern_getLsbD, ← pattern_getLsbD, h]
  exact (pattern_getLsbD track order pos ⟨k, hk⟩).trans (hphase.trans (pattern_getLsbD track order pos' ⟨k, hk⟩).symm)

/-- A track is legal where some legal wiring tells all positions apart. -/
theorem legalTrack_of_patterns_nodup {track : Vector Byte 16} {order : Vector (BitVec 4) 8}
    (ho : legalPinOrder order = true) (hnodup : ((List.range 128).map (pattern track order)).Nodup) :
    legalTrack track = true := by
  unfold legalTrack
  exact decide_eq_true (List.nodup_range.map_on fun _ hpos _ hpos' h =>
    List.inj_on_of_nodup_map hnodup hpos hpos' (pattern_eq_of_identity_eq ho h))

/-- Settles O15: a legal wiring tells the same positions apart as the identity wiring. -/
theorem trackLegalityUnderAnyWiring : Obligations.TrackLegalityUnderAnyWiring :=
  fun _ _ ho => ⟨fun ht => patterns_nodup ht ho, legalTrack_of_patterns_nodup ho⟩

/-! ### Legality as a test of rotations (40_table_builder R104) -/

/-- The wiring whose pin j has the phase j + 1: under it a pattern is a rotation of a track word, where the identity
wiring gives its mirror image. -/
def risingWiring : Vector (BitVec 4) 8 := #v[1, 2, 3, 4, 5, 6, 7, 8]

theorem legalPinOrder_risingWiring : legalPinOrder risingWiring = true := by decide

theorem risingWiring_toNat : ∀ pin : Fin 8, risingWiring[pin].toNat = pin.val + 1 := by decide

theorem trackWord_getLsbD (track : Vector Byte 16) (r : Nat) {j : Nat} (hj : j < 8) :
    (trackWord track r).getLsbD j = trackBit track (16 * j + r) := by
  unfold trackWord
  have hbit := getLsbD_foldl_setBit (fun j => trackBit track (16 * j.val + r) = true) (List.finRange 8) 0 ⟨j, hj⟩
  simpa using hbit

theorem byte_rotateLeft_getLsbD (w : Byte) {k j : Nat} (hk : k ≤ 8) (hj : j < 8) :
    (w.rotateLeft k).getLsbD j = w.getLsbD ((j + 8 - k) % 8) := by
  rw [BitVec.getLsbD_rotateLeft]
  by_cases hlow : j < k % 8
  · rw [decide_eq_true hlow, cond_true]
    congr 1
    omega
  · rw [decide_eq_false hlow, decide_eq_true hj, cond_false, Bool.true_and]
    congr 1
    omega

/-- Two rotated bytes agree exactly when one byte is the other rotated by the difference. -/
theorem byte_rotateLeft_eq_iff {v w : Byte} {k l : Nat} (hk : k ≤ 8) (hl : l ≤ 8) :
    v.rotateLeft k = w.rotateLeft l ↔ v = w.rotateLeft ((l + 8 - k) % 8) := by
  constructor
  · intro h
    refine BitVec.eq_of_getLsbD_eq fun j hj => ?_
    calc v.getLsbD j
        = v.getLsbD (((j + k) % 8 + 8 - k) % 8) := by congr 1; omega
      _ = (v.rotateLeft k).getLsbD ((j + k) % 8) := (byte_rotateLeft_getLsbD v hk (by omega)).symm
      _ = (w.rotateLeft l).getLsbD ((j + k) % 8) := by rw [h]
      _ = w.getLsbD (((j + k) % 8 + 8 - l) % 8) := byte_rotateLeft_getLsbD w hl (by omega)
      _ = w.getLsbD ((j + 8 - (l + 8 - k) % 8) % 8) := by congr 1; omega
      _ = (w.rotateLeft ((l + 8 - k) % 8)).getLsbD j := (byte_rotateLeft_getLsbD w (by omega) hj).symm
  · rintro rfl
    refine BitVec.eq_of_getLsbD_eq fun j hj => ?_
    rw [byte_rotateLeft_getLsbD _ hk hj, byte_rotateLeft_getLsbD w (by omega) (by omega),
      byte_rotateLeft_getLsbD w hl hj]
    congr 1
    omega

/-- The pattern of `16 q + r` is the word `w_r` rotated down by `q` bits, which is up by `8 - q`. -/
theorem pattern_risingWiring (track : Vector Byte 16) {pos : Nat} (hpos : pos < 128) :
    pattern track risingWiring pos = (trackWord track (pos % 16)).rotateLeft (8 - pos / 16) := by
  refine BitVec.eq_of_getLsbD_eq fun j hj => ?_
  have hphase : risingWiring[(⟨j, hj⟩ : Fin 8)].toNat = j + 1 := risingWiring_toNat ⟨j, hj⟩
  calc (pattern track risingWiring pos).getLsbD j
      = trackBit track ((pos + 16 * (j + 1 - 1)) % 128) := by
        rw [← hphase]
        exact patternReadsTrackAtPhase track risingWiring pos ⟨j, hj⟩ legalPinOrder_risingWiring hpos
    _ = trackBit track (16 * ((j + 8 - (8 - pos / 16)) % 8) + pos % 16) := by congr 1; omega
    _ = (trackWord track (pos % 16)).getLsbD ((j + 8 - (8 - pos / 16)) % 8) :=
        (trackWord_getLsbD track _ (Nat.mod_lt _ (by decide))).symm
    _ = ((trackWord track (pos % 16)).rotateLeft (8 - pos / 16)).getLsbD j :=
        (byte_rotateLeft_getLsbD _ (by omega) hj).symm

/-- Two positions have the same pattern exactly when the word of the first is the word of the second, rotated by the
difference of their places in it. -/
theorem pattern_risingWiring_eq_iff (track : Vector Byte 16) {pos pos' : Nat} (hpos : pos < 128) (hpos' : pos' < 128) :
    pattern track risingWiring pos = pattern track risingWiring pos' ↔
      trackWord track (pos % 16) = (trackWord track (pos' % 16)).rotateLeft ((pos / 16 + 8 - pos' / 16) % 8) := by
  have hdiff : (8 - pos' / 16 + 8 - (8 - pos / 16)) % 8 = (pos / 16 + 8 - pos' / 16) % 8 := by omega
  rw [pattern_risingWiring track hpos, pattern_risingWiring track hpos', ← hdiff]
  exact byte_rotateLeft_eq_iff (by omega) (by omega)

/-- In a legal track a word is a rotation of a word only where both are the same and the rotation is by nothing. -/
theorem trackWord_eq_rotateLeft_of_legal {track : Vector Byte 16} (ht : legalTrack track = true) {r r' k : Nat}
    (hr : r < 16) (hr' : r' < 16) (hk : k < 8) (h : trackWord track r = (trackWord track r').rotateLeft k) :
    r = r' ∧ k = 0 := by
  have hword : r % 16 = r := by omega
  have hword' : (16 * ((8 - k) % 8) + r') % 16 = r' := by omega
  have hturn : (r / 16 + 8 - (16 * ((8 - k) % 8) + r') / 16) % 8 = k := by omega
  have hsame : pattern track risingWiring r = pattern track risingWiring (16 * ((8 - k) % 8) + r') := by
    rw [pattern_risingWiring_eq_iff track (by omega) (by omega), hword, hword', hturn]
    exact h
  have hpos := pattern_injective ht legalPinOrder_risingWiring (by omega) (by omega) hsame
  omega

/-- Settles O14: a rotation of one track word that is a track word is a pattern that two positions share. -/
theorem trackLegalityByRotations : Obligations.TrackLegalityByRotations := by
  intro track
  constructor
  · intro ht
    refine ⟨fun r hr k hk hk8 h => ?_, fun r r' hr hr' hne k hk h => ?_⟩
    · obtain ⟨_, hzero⟩ := trackWord_eq_rotateLeft_of_legal ht hr hr hk8 h
      omega
    · obtain ⟨heq, _⟩ := trackWord_eq_rotateLeft_of_legal ht hr hr' hk h
      exact hne heq
  · rintro ⟨hown, hothers⟩
    refine legalTrack_of_patterns_nodup legalPinOrder_risingWiring
      (List.nodup_range.map_on fun pos hpos pos' hpos' h => ?_)
    rw [List.mem_range] at hpos hpos'
    rw [pattern_risingWiring_eq_iff track hpos hpos'] at h
    by_cases hword : pos % 16 = pos' % 16
    · rw [hword] at h
      by_contra hne
      exact hown (pos' % 16) (by omega) ((pos / 16 + 8 - pos' / 16) % 8) (by omega) (by omega) h
    · exact absurd h (hothers _ _ (by omega) (by omega) hword _ (by omega))

end Sys2Proof.Machine
end
